-- ==== Sys2Proof/Word.lean ====
section
/-!
DEFINITION. The value domains of `00_scope.md` R8.
-/

namespace Sys2Proof

/-- One byte, the unit in which the sample memories are held (`20_memory.md` R54). -/
abbrev Byte := BitVec 8

/-- `u16`: a sample of `RAW` or `IMG`, an entry of `LUT` (`00_scope.md` R8). -/
abbrev Sample := BitVec 16

/-- `u32`: a register, a word of a command or of a response (`00_scope.md` R8). -/
abbrev Word := BitVec 32

/-- `s64`: a sequence parameter, a frame or bin size, an `EINFO` value. Read as a signed number with
`BitVec.toInt`; no rule lets one wrap (`00_scope.md` R8). -/
abbrev S64 := BitVec 64

end Sys2Proof
end

