-- ==== Sys2Proof/Machine/Arith.lean ====
section
/-!
DEFINITION. The exact arithmetic of `00_scope.md` R10 to R13 and the saturation of
`60_exceptions.md` R232.
-/

namespace Sys2Proof.Machine

/-- `floor_div(a, b)` for `b > 0`: the greatest integer `n` with `n * b ≤ a` (`00_scope.md` R10). -/
def floorDiv (a b : Int) : Int := a / b

/-- `round_div(a, b)` for `b > 0`: to the nearest integer, ties away from zero (`00_scope.md` R11). -/
def roundDiv (a b : Int) : Int :=
  if 0 ≤ a then floorDiv (2 * a + b) (2 * b) else -floorDiv (2 * -a + b) (2 * b)

/-- `is_pow2(v)`: one of 1, 2, 4, …, 2^31 (`00_scope.md` R12). -/
def isPow2 (v : Word) : Bool := v != 0 && v &&& (v - 1) == 0

/-- `field_mask(width)` = 2^width - 1 (`00_scope.md` R13). -/
def fieldMask (width : Nat) : Word := BitVec.ofNat 32 (2 ^ width - 1)

/-- `reg_mask(offset, width)` = `field_mask(width)` shifted to its place (`00_scope.md` R13). -/
def regMask (offset width : Nat) : Word := fieldMask width <<< offset

/-- The least and the greatest `s64` (`00_scope.md` R8). -/
def s64Min : Int := -9223372036854775808
def s64Max : Int := 9223372036854775807

/-- The `s64` an `EINFO` slot sends for a value of `Z`: saturated at both ends (`60_exceptions.md` R232). -/
def saturateS64 (z : Int) : S64 := BitVec.ofInt 64 (max s64Min (min s64Max z))

end Sys2Proof.Machine
end

