-- ==== Sys2Proof/Config.lean ====
section
/-!
DEFINITION. The configuration record `CFG` of `00_scope.md` R4 to R6, its reference values, and the
free values of unwritten memory (`93_implementation_defined.md` U1).
-/

namespace Sys2Proof

/-- The three detector models (`00_scope.md` R2). -/
inductive DetectorModel where
  | pccd170170
  | pccd4824
  | pccd16080
deriving DecidableEq, Repr

/-- The register names of `10_state.md` R23 and R24. A `CFG` may give a model further registers, which
the spec does not name: `other`. -/
inductive RegName where
  | control
  | framesPerSequence
  | exposureSteps
  | gapSteps
  | streakModeLines
  | subframeSize
  | subimagesPerRead
  | refVersion
  | refPow2
  | refSpare
  | other (n : Nat)
deriving DecidableEq, Repr

/-- A register descriptor (`10_state.md` R21): everything of the source's record but the value. The
numbers are `u32`; that they fit is `Config.legal`. -/
structure RegDesc where
  name : RegName
  default : Nat
  minimum : Nat
  maximum : Nat
  readOnly : Bool
  powerOfTwo : Bool
deriving DecidableEq, Repr

/-- The place of a pseudo-register in the control register (`10_state.md` R28). -/
structure BitField where
  offset : Nat
  width : Nat
deriving DecidableEq, Repr

/-- The ten pseudo-registers, in the order of their indexes (`10_state.md` R27). -/
inductive PseudoReg where
  | testMode
  | readoutMode
  | triggerMode
  | durationTrigger
  | readoutSpeed
  | offsetCorrection
  | linearization
  | dummyFrameValid
  | shutterDisable
  | overExposureWarning
deriving DecidableEq, Repr

/-- The configuration record `CFG` (`00_scope.md` R5). `NREGS` is the length of `desc`; `layout` lists
the indexes 0 to 9, `none` where the model lacks the field. -/
structure Config where
  modelId : DetectorModel
  dhBase : Nat
  dhPseudoBase : Nat
  desc : List RegDesc
  layout : List (Option BitField)
  qDenom : Nat
  stepSize : Nat
  gapStepsMax : Nat
  subimageLinesMax : Nat
  hdf : Nat
  vdf : Nat
  numTaps : Nat
  resetFramesizeH : S64
  resetFramesizeV : S64
  resetBinsizeH : S64
  resetBinsizeV : S64
  resetReadoutTime : S64
  rawLen : Nat
  imgLen : Nat
  lutLen : Nat
deriving DecidableEq, Repr

/-- `NREGS`, the number of physical registers (`00_scope.md` R5). -/
abbrev Config.nregs (c : Config) : Nat := c.desc.length

/-- The architected registers 0 to 6 with the reference numbers (`10_state.md` R23). -/
def Config.architected : List RegDesc :=
  [ ⟨.control, 0, 0, 4294967295, false, false⟩,
    ⟨.framesPerSequence, 1, 1, 65535, false, false⟩,
    ⟨.exposureSteps, 0, 0, 4294967295, false, false⟩,
    ⟨.gapSteps, 1, 1, 65535, false, false⟩,
    ⟨.streakModeLines, 2, 2, 65535, false, false⟩,
    ⟨.subframeSize, 1, 1, 1024, false, false⟩,
    ⟨.subimagesPerRead, 1, 1, 2048, false, false⟩ ]

/-- The registers at offsets 7 and above in the reference configuration (`10_state.md` R24). -/
def Config.modelSpecific : DetectorModel → List RegDesc
  | .pccd170170 =>
    [ ⟨.refVersion, 0x00170170, 0, 4294967295, true, false⟩,
      ⟨.refPow2, 1, 1, 128, false, true⟩,
      ⟨.refSpare, 0, 0, 255, false, false⟩ ]
  | .pccd4824 =>
    [ ⟨.refVersion, 0x00004824, 0, 4294967295, true, false⟩,
      ⟨.refPow2, 1, 1, 128, false, true⟩ ]
  | .pccd16080 =>
    [ ⟨.refVersion, 0x00016080, 0, 4294967295, true, false⟩ ]

/-- The reference layout of the control register, the same for the three models (`10_state.md` R28). -/
def Config.referenceLayout : List (Option BitField) :=
  [ some ⟨0, 1⟩, some ⟨1, 2⟩, some ⟨3, 1⟩, some ⟨4, 1⟩, some ⟨5, 1⟩,
    some ⟨6, 1⟩, some ⟨7, 1⟩, some ⟨8, 1⟩, some ⟨9, 1⟩, some ⟨10, 1⟩ ]

/-- The horizontal descramble factor of the reference configuration (`00_scope.md` R5); the vertical
one is the same number on every model. -/
def Config.referenceFactor : DetectorModel → Nat
  | .pccd170170 => 4
  | .pccd4824 => 2
  | .pccd16080 => 1

/-- The reference configuration of a model (`00_scope.md` R5, column "reference value"). -/
def Config.reference (m : DetectorModel) : Config where
  modelId := m
  dhBase := 100000
  dhPseudoBase := 200000
  desc := Config.architected ++ Config.modelSpecific m
  layout := Config.referenceLayout
  qDenom := 1000000000
  stepSize := 1000000
  gapStepsMax := 65535
  subimageLinesMax := 2048
  hdf := Config.referenceFactor m
  vdf := Config.referenceFactor m
  numTaps := Config.referenceFactor m * Config.referenceFactor m
  resetFramesizeH := 4
  resetFramesizeV := 4
  resetBinsizeH := 1
  resetBinsizeV := 1
  resetReadoutTime := 0
  rawLen := 64
  imgLen := 64
  lutLen := Config.referenceFactor m * Config.referenceFactor m * 65536

/-- The three sample memories (`20_memory.md` R50). -/
inductive MemSpace where
  | raw
  | img
  | lut
deriving DecidableEq, Repr

/-- FREE VALUE (`20_memory.md` R64, `93_implementation_defined.md` U1: "`any value`"). The byte that
stands at a byte address of a memory which nothing has written since the reset counted by `epoch`.
It has no body, so no proof can see what it is (assumption log 7). -/
opaque Config.freeByte (space : MemSpace) (epoch : Nat) (byteAddress : Nat) : Byte

end Sys2Proof
end

