-- ==== Sys2Proof/Machine/State.lean ====
section
/-!
DEFINITION. The whole state of the block (`10_state.md` R20), the ports it shares with its environment
(`30_encoding.md` R70, `20_memory.md` R62), and the state after reset (`10_state.md` R43).
-/

namespace Sys2Proof.Machine

/-- A sample memory, held as bytes: the cells written since reset, byte addresses strictly rising
(`Memory.wf`). The sample at index `a` is at the byte addresses `2 * a` and `2 * a + 1`, less
significant byte first (`20_memory.md` R53, R54; assumption log 9). -/
abbrev Memory := List Host.Cell

/-- What an unlisted address reads as: no value of its own. A command that reads a sample there gets a
free value (`20_memory.md` R64; assumption log 7). -/
def Memory.unlisted : Option Byte := none

/-- The canonical form: byte addresses strictly rising. No entry can equal `Memory.unlisted`. -/
abbrev Memory.wf (m : Memory) : Prop := m.Pairwise (fun c d => c.1 < d.1)

/-- Every listed byte belongs to one of the first `len` samples (`20_memory.md` R50). -/
abbrev Memory.within (m : Memory) (len : Nat) : Prop := ∀ c ∈ m, c.1 < 2 * len

/-- The four sizes that `GEOM` and `SAVED` both hold (`10_state.md` R32, R34). -/
structure FrameGeometry where
  framesizeH : S64
  framesizeV : S64
  binsizeH : S64
  binsizeV : S64
deriving DecidableEq, Repr

/-- `IMGMETA` (`10_state.md` R39). -/
structure ImageMeta where
  rows : S64
  cols : S64
deriving DecidableEq, Repr

/-- What the environment does: it sends a word on the command port, or makes one of the moves of
`20_memory.md` R62. -/
inductive HostEvent where
  | word (w : Word)
  | loadRaw (a : Nat) (v : Sample)
  | readImage (a : Nat)
  | readMeta
  | loadLut (t : List Sample)
  | setReadoutTime (t : S64)
  | reset
deriving DecidableEq, Repr

/-- What `EnvReadImage` and `EnvReadMeta` return (`20_memory.md` R62). -/
inductive EnvAnswer where
  | sample (a : Nat) (v : Sample)
  | imageMeta (m : ImageMeta)
deriving DecidableEq, Repr

/-- The statuses of `60_exceptions.md` R230. -/
inductive Status where
  | ok
  | deviceIoError
  | timedOut
  | illegalArgument
  | wouldExceedLimit
  | unsupported
  | permissionDenied
  | outOfRange
  | invalidValue
  | notImplemented
  | illegalCommand
deriving DecidableEq, Repr

/-- The causes of `60_exceptions.md` R231, in the order of its table, cause 0 left out. -/
inductive Cause where
  | badOpcode
  | badReservedBits
  | badLength
  | addrUnmapped
  | regReadOnly
  | valueOutOfRange
  | notPowerOfTwo
  | pseudoUnknownId
  | seqUnknownType
  | seqParamCount
  | seqBulbFrames
  | seqFramesLow
  | seqFramesHigh
  | seqExposureNegative
  | seqExposureStepsRange
  | seqGapNegative
  | seqGapLow
  | seqGapHigh
  | seqStreakLinesRange
  | seqSubimageTotal
  | seqSubimageParamNegative
  | seqSubframeRange
  | seqSubimagesRange
  | dscNotImplemented
  | dscGeometry
  | dscBuffer
  | dscLut
deriving DecidableEq, Repr

/-- What a failed check raises: its cause and the four values it compared, exact in `Z`
(`00_scope.md` R14, `60_exceptions.md` R231). The status is that of the cause. -/
structure Failure where
  cause : Cause
  e0 : Int
  e1 : Int
  e2 : Int
  e3 : Int
deriving DecidableEq, Repr

/-- The reasons the machine stops with a fault. No command raises one: a command's errors are
responses (`60_exceptions.md` R237). -/
inductive Fault where
  /-- Raised by `EnvReadImage(a)` with `a` outside `0 .. IMG_LEN - 1`, an address that does not exist
  (`20_memory.md` R50). Safe: the model stops (assumption log 10). -/
  | imageAddressOutOfRange
deriving DecidableEq, Repr

/-- The reasons the model refuses to go on. No command of the block is refused but one that has no
meaning yet, and there is none. -/
inductive Refusal where
  /-- Raised by an arm of `exec` without a meaning. Safe. No arm raises it. -/
  | notModelled (mnemonic : String)
  /-- Raised by a second `EnvLoadLut` (`70_reset_and_hazards.md` R270, U13). Safe: the move is not
  allowed. -/
  | lutAlreadyLoaded
  /-- Raised by `EnvLoadLut` of a table that has not exactly `LUT_LEN` entries (U13). Safe. -/
  | lutWrongLength
  /-- Raised by `EnvSetReadoutTime` of a negative time (U13). Safe. -/
  | negativeReadoutTime
  /-- Raised by `EnvLoadRaw` outside `RAW_LEN` (U13). Safe. -/
  | rawAddressOutOfRange
  /-- Raised by `boot` with a configuration that is not legal (`00_scope.md` R6, U7). Safe. -/
  | illegalConfiguration
deriving DecidableEq, Repr

/-- The state. The fields down to `lutLoaded` are those of `10_state.md` R20; `rx` is the partly
received frame of `70_reset_and_hazards.md` R260; the rest are the model's own (assumption logs 1, 3,
6 and 8). -/
structure State where
  cfg : Config
  regs : List Word
  geom : FrameGeometry
  saved : FrameGeometry
  readoutTime : S64
  raw : Memory
  img : Memory
  imgMeta : ImageMeta
  lut : Memory
  lutLoaded : Bool
  rx : List Word
  input : List HostEvent
  sent : List (List Word)
  answers : List EnvAnswer
  epoch : Nat
deriving DecidableEq, Repr

/-- The geometry after reset (`10_state.md` R43), of `GEOM` and of `SAVED` alike. -/
def resetGeometry (c : Config) : FrameGeometry :=
  ⟨c.resetFramesizeH, c.resetFramesizeV, c.resetBinsizeH, c.resetBinsizeV⟩

/-- Every register at its default (`10_state.md` R43). -/
def resetRegs (c : Config) : List Word := c.desc.map (fun d => BitVec.ofNat 32 d.default)

/-- The state after the first reset of a block built with configuration `c` (`10_state.md` R43). -/
def State.resetOf (c : Config) : State where
  cfg := c
  regs := resetRegs c
  geom := resetGeometry c
  saved := resetGeometry c
  readoutTime := c.resetReadoutTime
  raw := []
  img := []
  imgMeta := ⟨0, 0⟩
  lut := []
  lutLoaded := false
  rx := []
  input := []
  sent := []
  answers := []
  epoch := 0

/-- The state after reset of the reference configuration, model PCCD-4824 (`00_scope.md` R5; assumption
log 2). Every other configuration starts at `State.resetOf` of it. -/
def State.reset : State := State.resetOf (Config.reference .pccd4824)

end Sys2Proof.Machine
end

