-- ==== Sys2Proof/Machine/Response.lean ====
section
/-!
DEFINITION. Response frames: the numbers of statuses, causes and models, and the ten words
(`30_encoding.md` R76, `60_exceptions.md` R230 to R232, R239).
-/

namespace Sys2Proof.Machine

/-- `MODEL_ID` (`00_scope.md` R2). -/
def modelNumber : DetectorModel → Nat
  | .pccd170170 => 1
  | .pccd4824 => 2
  | .pccd16080 => 3

/-- The code of a status (`60_exceptions.md` R230). -/
def statusCode : Status → Nat
  | .ok => 0
  | .deviceIoError => 1
  | .timedOut => 2
  | .illegalArgument => 3
  | .wouldExceedLimit => 4
  | .unsupported => 5
  | .permissionDenied => 6
  | .outOfRange => 7
  | .invalidValue => 8
  | .notImplemented => 9
  | .illegalCommand => 10

/-- The code of a cause (`60_exceptions.md` R231). -/
def causeCode : Cause → Nat
  | .badOpcode => 1
  | .badReservedBits => 2
  | .badLength => 3
  | .addrUnmapped => 10
  | .regReadOnly => 11
  | .valueOutOfRange => 12
  | .notPowerOfTwo => 13
  | .pseudoUnknownId => 20
  | .seqUnknownType => 30
  | .seqParamCount => 31
  | .seqBulbFrames => 32
  | .seqFramesLow => 33
  | .seqFramesHigh => 34
  | .seqExposureNegative => 35
  | .seqExposureStepsRange => 36
  | .seqGapNegative => 37
  | .seqGapLow => 38
  | .seqGapHigh => 39
  | .seqStreakLinesRange => 40
  | .seqSubimageTotal => 41
  | .seqSubimageParamNegative => 42
  | .seqSubframeRange => 43
  | .seqSubimagesRange => 44
  | .dscNotImplemented => 50
  | .dscGeometry => 51
  | .dscBuffer => 52
  | .dscLut => 53

/-- The one status a cause belongs to (`60_exceptions.md` R231). -/
def causeStatus : Cause → Status
  | .badOpcode => .illegalCommand
  | .badReservedBits => .illegalCommand
  | .badLength => .illegalCommand
  | .addrUnmapped => .deviceIoError
  | .regReadOnly => .permissionDenied
  | .valueOutOfRange => .outOfRange
  | .notPowerOfTwo => .invalidValue
  | .pseudoUnknownId => .illegalArgument
  | .seqUnknownType => .illegalArgument
  | .seqParamCount => .illegalArgument
  | .seqBulbFrames => .wouldExceedLimit
  | .seqFramesLow => .illegalArgument
  | .seqFramesHigh => .wouldExceedLimit
  | .seqExposureNegative => .illegalArgument
  | .seqExposureStepsRange => .illegalArgument
  | .seqGapNegative => .illegalArgument
  | .seqGapLow => .illegalArgument
  | .seqGapHigh => .illegalArgument
  | .seqStreakLinesRange => .illegalArgument
  | .seqSubimageTotal => .wouldExceedLimit
  | .seqSubimageParamNegative => .illegalArgument
  | .seqSubframeRange => .illegalArgument
  | .seqSubimagesRange => .illegalArgument
  | .dscNotImplemented => .notImplemented
  | .dscGeometry => .illegalArgument
  | .dscBuffer => .illegalArgument
  | .dscLut => .illegalArgument

/-- Word 0 of a response: `STATUS` 7:0, `MODEL_ID` 15:8, `CAUSE` 23:16, zero above (`30_encoding.md` R76). -/
def responseWord0 (m : DetectorModel) (status cause : Nat) : Word :=
  ((0 : Byte) ++ BitVec.ofNat 8 cause) ++ (BitVec.ofNat 8 (modelNumber m) ++ BitVec.ofNat 8 status)

/-- The two words of an `EINFO` slot, less significant first, saturated (`30_encoding.md` R76,
`60_exceptions.md` R232). -/
def einfoWords (z : Int) : List Word :=
  [(saturateS64 z).extractLsb' 0 32, (saturateS64 z).extractLsb' 32 32]

/-- The response of a command that completes `OK` with a data word. -/
def okResponse (m : DetectorModel) (data : Word) : List Word :=
  [responseWord0 m (statusCode .ok) 0, data, 0, 0, 0, 0, 0, 0, 0, 0]

/-- The response of a command that ends with an error; `DATA` is zero (`60_exceptions.md` R232). -/
def errorResponse (m : DetectorModel) (f : Failure) : List Word :=
  [responseWord0 m (statusCode (causeStatus f.cause)) (causeCode f.cause), 0]
    ++ einfoWords f.e0 ++ einfoWords f.e1 ++ einfoWords f.e2 ++ einfoWords f.e3

/-- The `STATUS` field of a response frame (`30_encoding.md` R76). -/
def responseStatus (r : List Word) : Nat := ((r.getD 0 0).extractLsb' 0 8).toNat

/-- The `CAUSE` field of a response frame. -/
def responseCause (r : List Word) : Nat := ((r.getD 0 0).extractLsb' 16 8).toNat

/-- The `DATA` word of a response frame. -/
def responseData (r : List Word) : Word := r.getD 1 0

end Sys2Proof.Machine
end

