-- ==== Sys2Proof/Machine/Ops.lean ====
section
/-!
DEFINITION. The named operations over registers, memories and the response port. The error of a
command, the block's only "exception", is the one operation `State.raise` (`60_exceptions.md` R236,
R237); nothing is saved by it and so there is no return from it.
-/

namespace Sys2Proof.Machine

/-! ### Registers (`00_scope.md` R14) -/

/-- `REG[k]`. -/
def State.reg (s : State) (k : Nat) : Word := s.regs.getD k 0

/-- `REG[k] <- v`, with no check. -/
def State.setReg (s : State) (k : Nat) (v : Word) : State := { s with regs := s.regs.set k v }

/-- `GEOM.hdf`, `GEOM.vdf` and `GEOM.num_taps` are the configuration's, never written
(`10_state.md` R32, R33; assumption log 16). -/
def State.hdf (s : State) : Nat := s.cfg.hdf
def State.vdf (s : State) : Nat := s.cfg.vdf
def State.numTaps (s : State) : Nat := s.cfg.numTaps

/-! ### Memories -/

/-- The byte at an address, or `Memory.unlisted`. -/
def Memory.readByte : Memory → Nat → Option Byte
  | [], _ => Memory.unlisted
  | c :: m, a => if c.1 = a then some c.2 else Memory.readByte m a

/-- Writes the byte at an address, keeping the canonical form. -/
def Memory.writeByte : Memory → Nat → Byte → Memory
  | [], a, b => [(a, b)]
  | c :: m, a, b =>
    if a < c.1 then (a, b) :: c :: m
    else if a = c.1 then (a, b) :: m
    else c :: Memory.writeByte m a b

/-- The less and the more significant byte of a sample (`20_memory.md` R54). -/
def lowByte (v : Sample) : Byte := v.extractLsb' 0 8
def highByte (v : Sample) : Byte := v.extractLsb' 8 8

/-- `MemWrite(space, a, 2, v)` (`00_scope.md` R14). -/
def Memory.writeSample (m : Memory) (a : Nat) (v : Sample) : Memory :=
  (m.writeByte (2 * a) (lowByte v)).writeByte (2 * a + 1) (highByte v)

/-- A byte as a command sees it: the byte written since reset, else a free value (`20_memory.md` R64). -/
def Memory.byteOrFree (m : Memory) (space : MemSpace) (epoch a : Nat) : Byte :=
  (m.readByte a).getD (Config.freeByte space epoch a)

/-- `MemRead(space, a, 2)` (`00_scope.md` R14). -/
def Memory.readSample (m : Memory) (space : MemSpace) (epoch a : Nat) : Sample :=
  m.byteOrFree space epoch (2 * a + 1) ++ m.byteOrFree space epoch (2 * a)

/-- `RAW[a]`, `IMG[a]` and `LUT[a]`. -/
def State.rawSample (s : State) (a : Nat) : Sample := s.raw.readSample .raw s.epoch a
def State.imgSample (s : State) (a : Nat) : Sample := s.img.readSample .img s.epoch a
def State.lutEntry (s : State) (a : Nat) : Sample := s.lut.readSample .lut s.epoch a

/-- The memory that holds a table from sample address `a` on. -/
def cellsOfTable : Nat → List Sample → Memory
  | _, [] => []
  | a, v :: t => (2 * a, lowByte v) :: (2 * a + 1, highByte v) :: cellsOfTable (a + 1) t

/-! ### The response port -/

/-- Sends one response frame. -/
def State.respond (s : State) (r : List Word) : State := { s with sent := s.sent ++ [r] }

/-- `complete OK(data)`. -/
def State.complete (s : State) (data : Word) : State := s.respond (okResponse s.cfg.modelId data)

/-- `raise`: ends the command with an error. Only the response is sent; no architectural state changes
(`60_exceptions.md` R236, R237). -/
def State.raise (s : State) (f : Failure) : State := s.respond (errorResponse s.cfg.modelId f)

/-- The end of a command that checks first and then commits, with no data to return: the state its
commit phase made, or the error its first failed check raised. -/
def finish (s : State) : Except Failure State → Host.Outcome State Fault Refusal
  | .ok t => .next (t.complete 0)
  | .error f => .next (s.raise f)

/-- The end of a command that only reads: its data, or its error. -/
def finishRead (s : State) : Except Failure Word → Host.Outcome State Fault Refusal
  | .ok data => .next (s.complete data)
  | .error f => .next (s.raise f)

end Sys2Proof.Machine
end

