-- ==== Sys2Proof/Machine/Operands.lean ====
section
/-!
DEFINITION. The operand forms: the absolute register address, the absolute pseudo-register id, and the
sequence parameter (`40_register_access.md` R102, R105, `41_pseudo_register.md` R120,
`42_sequence_config.md` R140).
-/

namespace Sys2Proof.Machine

/-- Address decode, shared by `RDREG` and `WRREG`: the register offset (`40_register_access.md` R102). -/
def decodeAddress (c : Config) (addr : Word) : Except Failure Nat :=
  if c.dhBase ≤ addr.toNat ∧ addr.toNat < c.dhBase + c.nregs then .ok (addr.toNat - c.dhBase)
  else .error ⟨.addrUnmapped, addr.toNat, c.dhBase, (c.dhBase : Int) + c.nregs - 1, 0⟩

/-- `LAYOUT[i]`, where it is defined. -/
def layoutField (c : Config) (i : Nat) : Option BitField := (c.layout[i]?).join

/-- Id decode, shared by `GETPS` and `SETPS`: the place of the field (`41_pseudo_register.md` R120). -/
def decodeId (c : Config) (id : Word) : Except Failure BitField :=
  if c.dhPseudoBase ≤ id.toNat ∧ id.toNat ≤ c.dhPseudoBase + 9 then
    match layoutField c (id.toNat - c.dhPseudoBase) with
    | some f => .ok f
    | none => .error ⟨.pseudoUnknownId, id.toNat, 0, 0, 0⟩
  else .error ⟨.pseudoUnknownId, id.toNat, 0, 0, 0⟩

/-- `DESC[k]`. Every offset below `NREGS` has one; the value outside is not used. -/
def descriptor (c : Config) (k : Nat) : RegDesc := c.desc.getD k ⟨.other k, 0, 0, 0, false, false⟩

/-- `p[m]`, an exact integer in `Q9` units (`42_sequence_config.md` R140). -/
def param (ps : List S64) (m : Nat) : Int := (ps.getD m 0).toInt

/-- `round_q` and `floor_q` (`00_scope.md` R11). -/
def roundQ (c : Config) (p : Int) : Int := roundDiv p c.qDenom
def floorQ (c : Config) (p : Int) : Int := floorDiv p c.qDenom

end Sys2Proof.Machine
end

