-- ==== Sys2Proof/Machine/Flags.lean ====
section
/-!
DEFINITION. The block has no flags and no condition codes (`10_state.md` R41). What it has in their
place are the bit fields of the control register: this file reads and writes them (`10_state.md` R27
to R30).
-/

namespace Sys2Proof.Machine

/-- The index of a pseudo-register (`10_state.md` R27). -/
def pseudoIndex : PseudoReg → Nat
  | .testMode => 0
  | .readoutMode => 1
  | .triggerMode => 2
  | .durationTrigger => 3
  | .readoutSpeed => 4
  | .offsetCorrection => 5
  | .linearization => 6
  | .dummyFrameValid => 7
  | .shutterDisable => 8
  | .overExposureWarning => 9

/-- The slice of a control word that a field holds (`41_pseudo_register.md` R121). -/
def extractField (f : BitField) (w : Word) : Word := (w >>> f.offset) &&& fieldMask f.width

/-- A control word with one field replaced: clear, then OR, the value cut to the field
(`41_pseudo_register.md` R122). -/
def insertField (f : BitField) (v w : Word) : Word :=
  (w &&& ~~~regMask f.offset f.width) ||| ((v &&& fieldMask f.width) <<< f.offset)

/-- `reg_mask` of a pseudo-register; no bit at all where the model lacks it. -/
def pseudoMask (c : Config) (p : PseudoReg) : Word :=
  match layoutField c (pseudoIndex p) with
  | some f => regMask f.offset f.width
  | none => 0

/-- The offset of a pseudo-register in the control register. -/
def pseudoOffset (c : Config) (p : PseudoReg) : Nat :=
  match layoutField c (pseudoIndex p) with
  | some f => f.offset
  | none => 0

/-- `READOUT_MASK` (`10_state.md` R29) and `DT_BIT` (`42_sequence_config.md` R141). -/
def readoutMask (c : Config) : Word := pseudoMask c .readoutMode
def durationBit (c : Config) : Word := pseudoMask c .durationTrigger

/-- The codes of the readout modes (`10_state.md` R29); 3 is reserved. -/
def fullFrame : Word := 0
def subImage : Word := 1
def streakCamera : Word := 2

/-- `MODE(w)` (`10_state.md` R29). -/
def modeOf (c : Config) (w : Word) : Word := (w &&& readoutMask c) >>> pseudoOffset c .readoutMode

/-- The control word `w` with the readout-mode field cleared and a mode code ORed in
(`42_sequence_config.md` R160, R165). -/
def withMode (c : Config) (mode w : Word) : Word :=
  (w &&& ~~~readoutMask c) ||| (mode <<< pseudoOffset c .readoutMode)

/-- The readout mode the block is in. -/
def State.mode (s : State) : Word := modeOf s.cfg (s.reg 0)

/-- The value of a pseudo-register, where the model has it (`10_state.md` R27: a slice of `REG[0]`). -/
def State.pseudo (s : State) (p : PseudoReg) : Option Word :=
  (layoutField s.cfg (pseudoIndex p)).map (fun f => extractField f (s.reg 0))

end Sys2Proof.Machine
end

