-- ==== Sys2Proof/Machine/Descramble.lean ====
section
/-!
DEFINITION. `DESCR` and `DESCR.LIN`, the pixel-sector descrambler (`43_descramble.md`): a list of
sample moves, checked before the first one is made.
-/

namespace Sys2Proof.Machine

/-- The two mappings the source gives (`43_descramble.md` R191). -/
inductive Variant where
  | fullFrame4
  | streak
deriving DecidableEq, Repr

/-- One sample move: `IMG[dst] <- f(sector, RAW[src])` (`43_descramble.md` R194, R196). The sector
matters only to the linearised form. -/
structure Move where
  dst : Nat
  src : Nat
  sector : Nat
deriving DecidableEq, Repr

/-- The `LIN` bit as a number. -/
def linNumber (lin : Bool) : Int := if lin then 1 else 0

/-- `NotImplemented`, cause 50 (`43_descramble.md` R191, R197). -/
def notImplemented (m : DetectorModel) (mode : Word) (lin : Bool) : Failure :=
  ⟨.dscNotImplemented, modelNumber m, mode.toNat, linNumber lin, 0⟩

/-- `select_variant(MODEL_ID, mode, LIN)` (`43_descramble.md` R191). -/
def selectVariant (m : DetectorModel) (mode : Word) (lin : Bool) : Except Failure Variant :=
  match m with
  | .pccd16080 => .error (notImplemented m mode lin)
  | .pccd4824 =>
    if mode = streakCamera then
      if lin then .error (notImplemented m mode lin) else .ok .streak
    else .ok .fullFrame4
  | .pccd170170 =>
    if mode = streakCamera then
      if lin then .error (notImplemented m mode lin) else .ok .streak
    else .error (notImplemented m mode lin)

/-- The lookup table check (`43_descramble.md` R190, R195). -/
def checkLut (s : State) (lin : Bool) : Except Failure Unit :=
  if lin = true ∧ s.lutLoaded = false then .error ⟨.dscLut, s.cfg.lutLen, 0, 0, 0⟩ else .ok ()

/-- The geometry and capacity checks of the four-tap variant (`43_descramble.md` R192). -/
def checkFullFrame (c : Config) (h v : Int) : Except Failure Unit :=
  if h ≤ 0 ∨ v ≤ 0 ∨ h % c.hdf ≠ 0 ∨ v % c.vdf ≠ 0 then .error ⟨.dscGeometry, h, v, c.hdf, c.vdf⟩
  else if c.rawLen < h * v ∨ c.imgLen < h * v then
    .error ⟨.dscBuffer, h * v, c.rawLen, h * v, c.imgLen⟩
  else .ok ()

/-- The geometry and capacity checks of the streak-camera variant (`43_descramble.md` R192). -/
def checkStreak (c : Config) (w v : Int) : Except Failure Unit :=
  if w ≤ 0 ∨ v ≤ 0 ∨ w % 4 ≠ 0 then .error ⟨.dscGeometry, w, v, 4, 1⟩
  else if c.rawLen < floorDiv v 2 * 4 * w ∨ c.imgLen < floorDiv v 2 * w then
    .error ⟨.dscBuffer, floorDiv v 2 * 4 * w, c.rawLen, floorDiv v 2 * w, c.imgLen⟩
  else .ok ()

/-- `S(n, r, c)` of an image `h` samples wide with sectors of `ifs` rows and `jfs` columns, `hdf`
sectors to a row (`43_descramble.md` R193). -/
def sectorAddress (hdf h ifs jfs n r c : Nat) : Nat := (n / hdf * ifs + r) * h + n % hdf * jfs + c

/-- The four moves of one iteration of the four-tap mapping (`43_descramble.md` R194). -/
def fullFrameGroup (hdf h v i j : Nat) : List Move :=
  let ifs := v / 2
  let jfs := h / 2
  let g := 4 * (i * jfs + j)
  [ ⟨sectorAddress hdf h ifs jfs 0 i j, g + 2, 0⟩,
    ⟨sectorAddress hdf h ifs jfs 1 i (jfs - 1 - j), g + 3, 1⟩,
    ⟨sectorAddress hdf h ifs jfs 2 (ifs - 1 - i) j, g + 1, 2⟩,
    ⟨sectorAddress hdf h ifs jfs 3 (ifs - 1 - i) (jfs - 1 - j), g, 3⟩ ]

/-- The moves of the four-tap mapping, `i` outer, `j` inner (`43_descramble.md` R194). -/
def fullFrameMoves (hdf h v : Nat) : List Move :=
  (List.range (v / 2)).flatMap fun i => (List.range (h / 2)).flatMap fun j => fullFrameGroup hdf h v i j

/-- The four moves of group `j` of output line `i` of the streak-camera mapping (`43_descramble.md` R196). -/
def streakGroup (w i j : Nat) : List Move :=
  let half := w / 2
  let rb := i * 4 * w
  let ib := i * w
  [ ⟨ib + j, rb + 16 * j + 2, 0⟩,
    ⟨ib + (half - 1 - j), rb + 16 * j + 3, 0⟩,
    ⟨ib + half + j, rb + 16 * j + 1, 0⟩,
    ⟨ib + half + (half - 1 - j), rb + 16 * j, 0⟩ ]

/-- The moves of the streak-camera mapping (`43_descramble.md` R196). -/
def streakMoves (w v : Nat) : List Move :=
  (List.range (v / 2)).flatMap fun i => (List.range (w / 2 / 2)).flatMap fun j => streakGroup w i j

/-- `f(n, s)`: the sample itself, or its image under the curve of sector `n` (`43_descramble.md` R194,
R195). -/
def linearise (s : State) (lin : Bool) (n : Nat) (v : Sample) : Sample :=
  if lin then s.lutEntry (n * 65536 + v.toNat) else v

/-- The sample a move stores. `RAW`, `LUT` and the geometry are those of the state the command started
in (`20_memory.md` R63). -/
def movedSample (s : State) (lin : Bool) (m : Move) : Sample :=
  linearise s lin m.sector (s.rawSample m.src)

/-- The image memory after a list of moves. -/
def applyMoves (s : State) (lin : Bool) (moves : List Move) : Memory :=
  moves.foldl (fun img m => img.writeSample m.dst (movedSample s lin m)) s.img

/-- The image a variant makes, and its metadata (`43_descramble.md` R194, R196, R198). -/
def storeImage (s : State) (lin : Bool) (moves : List Move) (rows cols : Int) : State :=
  { s with
    img := applyMoves s lin moves
    imgMeta := ⟨BitVec.ofInt 64 rows, BitVec.ofInt 64 cols⟩ }

/-- A variant, its checks first (`43_descramble.md` R192, R194, R196). -/
def runVariant (s : State) (lin : Bool) : Variant → Except Failure State
  | .fullFrame4 => do
    let h := s.geom.framesizeH.toInt
    let v := s.geom.framesizeV.toInt
    checkFullFrame s.cfg h v
    return storeImage s lin (fullFrameMoves s.hdf h.toNat v.toNat) v h
  | .streak => do
    let w := s.geom.framesizeH.toInt
    let v := s.geom.framesizeV.toInt
    checkStreak s.cfg w v
    return storeImage s lin (streakMoves w.toNat v.toNat) (floorDiv v 2) w

/-- The body of both commands (`43_descramble.md` R190). -/
def descramble (s : State) (lin : Bool) : Except Failure State := do
  let variant ← selectVariant s.cfg.modelId s.mode lin
  checkLut s lin
  runVariant s lin variant

/-- `DESCR` (`43_descramble.md` R190). -/
def execDescr (s : State) : Host.Outcome State Fault Refusal := finish s (descramble s false)

/-- `DESCR.LIN` (`43_descramble.md` R190, R195). -/
def execDescrLin (s : State) : Host.Outcome State Fault Refusal := finish s (descramble s true)

end Sys2Proof.Machine
end

