-- ==== Sys2Proof/Machine/PseudoRegister.lean ====
section
/-!
DEFINITION. `GETPS` and `SETPS`, the bit-field unpacker and packer (`41_pseudo_register.md`).
-/

namespace Sys2Proof.Machine

/-- `GETPS id` (`41_pseudo_register.md` R121). -/
def execGetps (id : Word) (s : State) : Host.Outcome State Fault Refusal :=
  finishRead s (do
    let f ← decodeId s.cfg id
    return extractField f (s.reg 0))

/-- `SETPS id, value` (`41_pseudo_register.md` R122). -/
def execSetps (id value : Word) (s : State) : Host.Outcome State Fault Refusal :=
  finish s (do
    let f ← decodeId s.cfg id
    return s.setReg 0 (insertField f value (s.reg 0)))

end Sys2Proof.Machine
end

