-- ==== Sys2Proof/Machine/RegisterAccess.lean ====
section
/-!
DEFINITION. `RDREG` and `WRREG` (`40_register_access.md`).
-/

namespace Sys2Proof.Machine

/-- `RDREG addr` (`40_register_access.md` R100). -/
def execRdreg (addr : Word) (s : State) : Host.Outcome State Fault Refusal :=
  finishRead s (do
    let k ← decodeAddress s.cfg addr
    return s.reg k)

/-- The checks `WRREG` makes of a value, in their order (`40_register_access.md` R101). -/
def checkWrite (d : RegDesc) (addr value : Word) : Except Failure Unit :=
  if d.readOnly = true then .error ⟨.regReadOnly, addr.toNat, value.toNat, 0, 0⟩
  else if value.toNat < d.minimum ∨ d.maximum < value.toNat then
    .error ⟨.valueOutOfRange, addr.toNat, value.toNat, d.minimum, d.maximum⟩
  else if d.powerOfTwo = true ∧ isPow2 value = false then
    .error ⟨.notPowerOfTwo, addr.toNat, value.toNat, 0, 0⟩
  else .ok ()

/-- `WRREG addr, value` (`40_register_access.md` R101). -/
def execWrreg (addr value : Word) (s : State) : Host.Outcome State Fault Refusal :=
  finish s (do
    let k ← decodeAddress s.cfg addr
    checkWrite (descriptor s.cfg k) addr value
    return s.setReg k value)

end Sys2Proof.Machine
end

