-- ==== Sys2Proof/Machine/Sequence.lean ====
section
/-!
DEFINITION. `CFGSEQ`, the timing-sequence validator (`42_sequence_config.md`): a validate phase that
computes a plan and writes nothing, and a commit phase that cannot fail (R140).
-/

namespace Sys2Proof.Machine

/-! ### Sequence types -/

/-- The nine sequence types (`30_encoding.md` R79). -/
inductive SequenceType where
  | oneshot
  | continuous
  | multiframe
  | circular
  | strobe
  | bulb
  | geometrical
  | streak
  | subimage
deriving DecidableEq, Repr

/-- `T`, the code of a type (`30_encoding.md` R79). -/
def sequenceCode : SequenceType → Nat
  | .oneshot => 1
  | .continuous => 2
  | .multiframe => 3
  | .circular => 4
  | .strobe => 5
  | .bulb => 6
  | .geometrical => 7
  | .streak => 8
  | .subimage => 9

/-- `REQ[T]`, the number of parameters a type needs (`42_sequence_config.md` R142). -/
def requiredParams : SequenceType → Nat
  | .oneshot => 1
  | .continuous => 1
  | .multiframe => 3
  | .circular => 3
  | .strobe => 3
  | .bulb => 2
  | .geometrical => 3
  | .streak => 3
  | .subimage => 4

/-! ### The plan of a sequence -/

/-- The writes of a branch besides those all branches make (`42_sequence_config.md` R171): the streak
branch's line count and vertical frame size, the sub-image branch's two registers. -/
inductive SequenceBranch where
  | frameBased
  | streak (lines vsize : Int)
  | subimage (subframeSize subimagesPerRead : Int)
deriving DecidableEq, Repr

/-- What the validate phase hands to the commit phase. -/
structure SequencePlan where
  new : Word
  restore : Bool
  save : Bool
  frames : Int
  exposure : Int
  gap : Option Int
  branch : SequenceBranch
deriving DecidableEq, Repr

/-! ### Shared procedures of the validate phase -/

/-- The parameter count check of the prologue (`42_sequence_config.md` R141). -/
def checkParamCount (t : SequenceType) (ps : List S64) : Except Failure Unit :=
  if ps.length < requiredParams t then
    .error ⟨.seqParamCount, sequenceCode t, ps.length, requiredParams t, 0⟩
  else .ok ()

/-- The control word the prologue starts from: `DT_BIT` set for Bulb, cleared for every other type
(`42_sequence_config.md` R141). -/
def prologueWord (c : Config) (t : SequenceType) (old : Word) : Word :=
  if t = .bulb then old ||| durationBit c else old &&& ~~~durationBit c

/-- `check_frames(nf)` (`42_sequence_config.md` R143). -/
def checkFrames (c : Config) (nf : Int) : Except Failure Unit :=
  if nf < (descriptor c 1).minimum then
    .error ⟨.seqFramesLow, nf, (descriptor c 1).minimum, (descriptor c 1).maximum, 0⟩
  else if (descriptor c 1).maximum < nf then
    .error ⟨.seqFramesHigh, nf, (descriptor c 1).minimum, (descriptor c 1).maximum, 0⟩
  else .ok ()

/-- `exposure_steps(E)` (`42_sequence_config.md` R144). -/
def exposureSteps (c : Config) (e : Int) : Except Failure Int :=
  if e < 0 then .error ⟨.seqExposureNegative, e, c.stepSize, 0, 0⟩
  else if floorDiv e c.stepSize < (descriptor c 2).minimum
      ∨ (descriptor c 2).maximum < floorDiv e c.stepSize then
    .error ⟨.seqExposureStepsRange, e, floorDiv e c.stepSize, (descriptor c 2).minimum,
      (descriptor c 2).maximum⟩
  else .ok (floorDiv e c.stepSize)

/-- `gap_steps(G)` (`42_sequence_config.md` R146). -/
def gapSteps (c : Config) (g : Int) : Except Failure Int :=
  if g < 0 then .error ⟨.seqGapNegative, g, c.stepSize, 1, c.gapStepsMax⟩
  else if floorDiv g c.stepSize < 1 then
    .error ⟨.seqGapLow, g, floorDiv g c.stepSize, 1, c.gapStepsMax⟩
  else if c.gapStepsMax < floorDiv g c.stepSize then
    .error ⟨.seqGapHigh, g, floorDiv g c.stepSize, 1, c.gapStepsMax⟩
  else .ok (floorDiv g c.stepSize)

/-- The control word after `leave_to_fullframe` (`42_sequence_config.md` R145). -/
def leaveToFullFrame (c : Config) (oldMode new : Word) : Word :=
  if oldMode ≠ fullFrame then new &&& ~~~readoutMask c else new

/-- The Bulb check of `frame_based` (`42_sequence_config.md` R147). -/
def checkBulb (t : SequenceType) (nf : Int) : Except Failure Unit :=
  if t = .bulb ∧ nf ≠ 1 then .error ⟨.seqBulbFrames, nf, 1, 0, 0⟩ else .ok ()

/-- The gap of `frame_based`: 1 for Continuous, computed for more than one frame, else not written
(`42_sequence_config.md` R147). -/
def frameGap (c : Config) (t : SequenceType) (nf g : Int) : Except Failure (Option Int) :=
  if t = .continuous then .ok (some 1)
  else if 1 < nf then do
    let gs ← gapSteps c g
    return some gs
  else .ok none

/-- `frame_based(nf, E, F)` after the prologue (`42_sequence_config.md` R141, R145, R147). -/
def frameBasedPlan (s : State) (t : SequenceType) (ps : List S64) (nf e f : Int) :
    Except Failure SequencePlan := do
  checkParamCount t ps
  checkBulb t nf
  checkFrames s.cfg nf
  let es ← exposureSteps s.cfg e
  let gap ← frameGap s.cfg t nf (f - e - s.readoutTime.toInt)
  return {
    new := leaveToFullFrame s.cfg s.mode (prologueWord s.cfg t (s.reg 0))
    restore := s.mode == streakCamera
    save := false
    frames := nf
    exposure := es
    gap := gap
    branch := .frameBased }

/-- The line count check of the streak-camera branch (`42_sequence_config.md` R160). -/
def streakLines (c : Config) (p : Int) : Except Failure Int :=
  if floorQ c p < (descriptor c 4).minimum ∨ (descriptor c 4).maximum < floorQ c p then
    .error ⟨.seqStreakLinesRange, p, floorQ c p, (descriptor c 4).minimum, (descriptor c 4).maximum⟩
  else .ok (floorQ c p)

/-- The validate phase of `CFGSEQ.STREAK` (`42_sequence_config.md` R160). -/
def streakPlan (s : State) (ps : List S64) : Except Failure SequencePlan := do
  checkParamCount .streak ps
  checkFrames s.cfg 1
  let lines ← streakLines s.cfg (param ps 0)
  let es ← exposureSteps s.cfg (param ps 1)
  let gs ← gapSteps s.cfg (param ps 2 - param ps 1)
  return {
    new :=
      if s.mode ≠ streakCamera then
        withMode s.cfg streakCamera (prologueWord s.cfg .streak (s.reg 0))
      else prologueWord s.cfg .streak (s.reg 0)
    restore := false
    save := s.mode != streakCamera
    frames := 1
    exposure := es
    gap := some gs
    branch := .streak lines (floorDiv lines 2) }

/-- The total of the sub-image lines, rounded once from the exact product (`42_sequence_config.md` R165). -/
def subimageTotal (c : Config) (p0 p1 : Int) : Int := roundDiv (p0 * p1) (c.qDenom * c.qDenom)

/-- The checks of the two counts of the sub-image branch (`42_sequence_config.md` R165). -/
def checkSubimageCounts (c : Config) (p0 p1 : Int) : Except Failure Unit :=
  if p0 < 0 ∨ p1 < 0 then .error ⟨.seqSubimageParamNegative, p0, p1, 0, 0⟩
  else if c.subimageLinesMax < subimageTotal c p0 p1 then
    .error ⟨.seqSubimageTotal, subimageTotal c p0 p1, c.subimageLinesMax, p0, p1⟩
  else .ok ()

/-- The sub-frame size, half the lines of a sub-image, and its range (`42_sequence_config.md` R165). -/
def subframeSize (c : Config) (p0 : Int) : Except Failure Int :=
  if floorDiv p0 (2 * c.qDenom) < (descriptor c 5).minimum
      ∨ (descriptor c 5).maximum < floorDiv p0 (2 * c.qDenom) then
    .error ⟨.seqSubframeRange, p0, floorDiv p0 (2 * c.qDenom), (descriptor c 5).minimum,
      (descriptor c 5).maximum⟩
  else .ok (floorDiv p0 (2 * c.qDenom))

/-- The sub-images per read and their range (`42_sequence_config.md` R165). -/
def subimagesPerRead (c : Config) (p1 : Int) : Except Failure Int :=
  if floorQ c p1 < (descriptor c 6).minimum ∨ (descriptor c 6).maximum < floorQ c p1 then
    .error ⟨.seqSubimagesRange, p1, floorQ c p1, (descriptor c 6).minimum, (descriptor c 6).maximum⟩
  else .ok (floorQ c p1)

/-- The validate phase of `CFGSEQ.SUBIMAGE` (`42_sequence_config.md` R165). -/
def subimagePlan (s : State) (ps : List S64) : Except Failure SequencePlan := do
  checkParamCount .subimage ps
  checkSubimageCounts s.cfg (param ps 0) (param ps 1)
  checkFrames s.cfg 1
  let sf ← subframeSize s.cfg (param ps 0)
  let sp ← subimagesPerRead s.cfg (param ps 1)
  let es ← exposureSteps s.cfg (param ps 2)
  let gs ← gapSteps s.cfg (param ps 3 - param ps 2)
  return {
    new :=
      if s.mode ≠ subImage then
        withMode s.cfg subImage (prologueWord s.cfg .subimage (s.reg 0))
      else prologueWord s.cfg .subimage (s.reg 0)
    restore := s.mode == streakCamera
    save := false
    frames := 1
    exposure := es
    gap := some gs
    branch := .subimage sf sp }

/-! ### The commit phase -/

/-- Step 1: the restore or the save of the geometry (`42_sequence_config.md` R171). -/
def commitGeometry (p : SequencePlan) (s : State) : State :=
  { s with
    geom := if p.restore = true then s.saved else s.geom
    saved := if p.save = true then s.geom else s.saved }

/-- Step 3: the registers of the branch. -/
def branchRegs (b : SequenceBranch) (r : List Word) : List Word :=
  match b with
  | .frameBased => r
  | .streak lines _ => r.set 4 (BitVec.ofInt 32 lines)
  | .subimage sf sp => (r.set 5 (BitVec.ofInt 32 sf)).set 6 (BitVec.ofInt 32 sp)

/-- Step 5: the gap register, where the plan has a gap. -/
def gapRegs (gap : Option Int) (r : List Word) : List Word :=
  match gap with
  | some gs => r.set 3 (BitVec.ofInt 32 gs)
  | none => r

/-- Step 6: the vertical frame size of the streak-camera branch. -/
def branchGeometry (b : SequenceBranch) (g : FrameGeometry) : FrameGeometry :=
  match b with
  | .frameBased => g
  | .streak _ vsize => { g with framesizeV := BitVec.ofInt 64 vsize }
  | .subimage _ _ => g

/-- Step 7: the control register, last, and only if it changed. -/
def controlRegs (old new : Word) (r : List Word) : List Word := if new ≠ old then r.set 0 new else r

/-- The commit phase: the writes of `42_sequence_config.md` R171 in their order. -/
def commitPlan (s : State) (p : SequencePlan) : State :=
  let s1 := commitGeometry p s
  let s2 := s1.setReg 1 (BitVec.ofInt 32 p.frames)
  let s3 := { s2 with regs := branchRegs p.branch s2.regs }
  let s4 := s3.setReg 2 (BitVec.ofInt 32 p.exposure)
  let s5 := { s4 with regs := gapRegs p.gap s4.regs }
  let s6 := { s5 with geom := branchGeometry p.branch s5.geom }
  { s6 with regs := controlRegs (s.reg 0) p.new s6.regs }

/-- The two phases of every `CFGSEQ` (`42_sequence_config.md` R140, R172). -/
def runSequence (s : State) (plan : Except Failure SequencePlan) : Host.Outcome State Fault Refusal :=
  finish s (plan.map (commitPlan s))

/-! ### The nine sequence types -/

/-- `CFGSEQ.ONESHOT` (`42_sequence_config.md` R150). -/
def execCfgseqOneshot (ps : List S64) (s : State) : Host.Outcome State Fault Refusal :=
  runSequence s (frameBasedPlan s .oneshot ps 1 (param ps 0) (param ps 0))

/-- `CFGSEQ.CONTINUOUS` (`42_sequence_config.md` R151). -/
def execCfgseqContinuous (ps : List S64) (s : State) : Host.Outcome State Fault Refusal :=
  runSequence s (frameBasedPlan s .continuous ps 1 (param ps 0) (param ps 0))

/-- `CFGSEQ.MULTIFRAME` (`42_sequence_config.md` R152). -/
def execCfgseqMultiframe (ps : List S64) (s : State) : Host.Outcome State Fault Refusal :=
  runSequence s
    (frameBasedPlan s .multiframe ps (roundQ s.cfg (param ps 0)) (param ps 1) (param ps 2))

/-- `CFGSEQ.CIRCULAR` (`42_sequence_config.md` R153). -/
def execCfgseqCircular (ps : List S64) (s : State) : Host.Outcome State Fault Refusal :=
  runSequence s
    (frameBasedPlan s .circular ps (roundQ s.cfg (param ps 0)) (param ps 1) (param ps 2))

/-- `CFGSEQ.STROBE` (`42_sequence_config.md` R154). -/
def execCfgseqStrobe (ps : List S64) (s : State) : Host.Outcome State Fault Refusal :=
  runSequence s
    (frameBasedPlan s .strobe ps (roundQ s.cfg (param ps 0)) (param ps 1) (param ps 2))

/-- `CFGSEQ.BULB` (`42_sequence_config.md` R155). -/
def execCfgseqBulb (ps : List S64) (s : State) : Host.Outcome State Fault Refusal :=
  runSequence s
    (frameBasedPlan s .bulb ps (roundQ s.cfg (param ps 0)) (param ps 1) (param ps 1))

/-- `CFGSEQ.GEOMETRICAL` (`42_sequence_config.md` R156). -/
def execCfgseqGeometrical (ps : List S64) (s : State) : Host.Outcome State Fault Refusal :=
  runSequence s
    (frameBasedPlan s .geometrical ps (roundQ s.cfg (param ps 0)) (param ps 1) (param ps 2))

/-- `CFGSEQ.STREAK` (`42_sequence_config.md` R160). -/
def execCfgseqStreak (ps : List S64) (s : State) : Host.Outcome State Fault Refusal :=
  runSequence s (streakPlan s ps)

/-- `CFGSEQ.SUBIMAGE` (`42_sequence_config.md` R165). -/
def execCfgseqSubimage (ps : List S64) (s : State) : Host.Outcome State Fault Refusal :=
  runSequence s (subimagePlan s ps)

/-- `CFGSEQ` with a type that is not one of the nine (`42_sequence_config.md` R170). -/
def runUnknownSequence (t : Byte) (s : State) : Host.Outcome State Fault Refusal :=
  .next (s.raise ⟨.seqUnknownType, t.toNat, 0, 0, 0⟩)

end Sys2Proof.Machine
end

