-- ==== Sys2Proof/Syntax.lean ====
section
/-!
DEFINITION. The commands: one constructor for each row of `spec/opcode_table.json`.
-/

namespace Sys2Proof

/-- A command of `30_encoding.md` R75 and R79. `addr`, `id` and `value` are operand words; `params` are
the `Q9` parameters of a `P` frame in their order (R73, R74). A `CFGSEQ` frame whose type is not one
of the nine is no constructor: the decoder rejects it by name (assumption log 12). -/
inductive Instr where
  | rdreg (addr : Word)
  | wrreg (addr value : Word)
  | getps (id : Word)
  | setps (id value : Word)
  | cfgseqOneshot (params : List S64)
  | cfgseqContinuous (params : List S64)
  | cfgseqMultiframe (params : List S64)
  | cfgseqCircular (params : List S64)
  | cfgseqStrobe (params : List S64)
  | cfgseqBulb (params : List S64)
  | cfgseqGeometrical (params : List S64)
  | cfgseqStreak (params : List S64)
  | cfgseqSubimage (params : List S64)
  | descr
  | descrLin
deriving DecidableEq, Repr

end Sys2Proof
end

