-- ==== Sys2Proof/Machine/Dispatch.lean ====
section
/-!
DEFINITION. One arm for each command, each one call of its meaning.
-/

namespace Sys2Proof.Machine

def exec (i : Instr) (s : State) : Host.Outcome State Fault Refusal :=
  match i with
  | .rdreg addr => Sys2Proof.Machine.execRdreg addr s
  | .wrreg addr value => Sys2Proof.Machine.execWrreg addr value s
  | .getps id => Sys2Proof.Machine.execGetps id s
  | .setps id value => Sys2Proof.Machine.execSetps id value s
  | .cfgseqOneshot params => Sys2Proof.Machine.execCfgseqOneshot params s
  | .cfgseqContinuous params => Sys2Proof.Machine.execCfgseqContinuous params s
  | .cfgseqMultiframe params => Sys2Proof.Machine.execCfgseqMultiframe params s
  | .cfgseqCircular params => Sys2Proof.Machine.execCfgseqCircular params s
  | .cfgseqStrobe params => Sys2Proof.Machine.execCfgseqStrobe params s
  | .cfgseqBulb params => Sys2Proof.Machine.execCfgseqBulb params s
  | .cfgseqGeometrical params => Sys2Proof.Machine.execCfgseqGeometrical params s
  | .cfgseqStreak params => Sys2Proof.Machine.execCfgseqStreak params s
  | .cfgseqSubimage params => Sys2Proof.Machine.execCfgseqSubimage params s
  | .descr => Sys2Proof.Machine.execDescr s
  | .descrLin => Sys2Proof.Machine.execDescrLin s

end Sys2Proof.Machine
end

