-- ==== Sys2Proof/WellFormed.lean ====
section
/-!
DEFINITION. Which commands have an encoding (`30_encoding.md` R73), and which configurations are legal
(`00_scope.md` R6).
-/

namespace Sys2Proof

/-- A `P` frame carries from 1 to 8 parameters (`30_encoding.md` R73). -/
abbrev paramCountOk (params : List S64) : Prop := 1 ≤ params.length ∧ params.length ≤ 8

/-- The commands a frame can carry. -/
def Instr.wellFormed : Instr → Bool
  | .rdreg _ => true
  | .wrreg _ _ => true
  | .getps _ => true
  | .setps _ _ => true
  | .cfgseqOneshot ps => decide (paramCountOk ps)
  | .cfgseqContinuous ps => decide (paramCountOk ps)
  | .cfgseqMultiframe ps => decide (paramCountOk ps)
  | .cfgseqCircular ps => decide (paramCountOk ps)
  | .cfgseqStrobe ps => decide (paramCountOk ps)
  | .cfgseqBulb ps => decide (paramCountOk ps)
  | .cfgseqGeometrical ps => decide (paramCountOk ps)
  | .cfgseqStreak ps => decide (paramCountOk ps)
  | .cfgseqSubimage ps => decide (paramCountOk ps)
  | .descr => true
  | .descrLin => true

/-- `00_scope.md` R6 clause 1: the two address ranges lie in `u32` and do not overlap. -/
abbrev Config.rangesOk (c : Config) : Prop :=
  c.dhBase + c.nregs ≤ 2 ^ 32 ∧ c.dhPseudoBase + 10 ≤ 2 ^ 32 ∧
    (c.dhBase + c.nregs ≤ c.dhPseudoBase ∨ c.dhPseudoBase + 10 ≤ c.dhBase)

/-- `00_scope.md` R6 clause 2, for one descriptor. -/
abbrev RegDesc.ok (d : RegDesc) : Prop :=
  d.minimum ≤ d.default ∧ d.default ≤ d.maximum ∧ d.maximum ≤ 4294967295 ∧
    (d.powerOfTwo = true → Machine.isPow2 (BitVec.ofNat 32 d.default) = true)

/-- `00_scope.md` R6 clause 3: registers 0 to 6 are the architected ones, plain, with the limits the
clause fixes for registers 0 and 3, and with the maxima that `10_state.md` R23 derives from
`SUBIMAGE_LINES_MAX` for registers 5 and 6; of the maxima R23 leaves only those of registers 1, 2 and 4
to a `CFG`. The half of an odd limit is rounded down (DEDUCED, assumption log 21). R5 makes `NREGS` at
least 7. -/
abbrev Config.architectedOk (c : Config) : Prop :=
  (c.desc.take 7).map RegDesc.name = Config.architected.map RegDesc.name ∧
    (∀ d ∈ c.desc.take 7, d.readOnly = false ∧ d.powerOfTwo = false) ∧
    (∀ d ∈ (c.desc[0]?).toList, d.minimum = 0 ∧ d.maximum = 4294967295) ∧
    (∀ d ∈ (c.desc[3]?).toList, d.minimum = 1 ∧ d.maximum = c.gapStepsMax) ∧
    (∀ d ∈ (c.desc[5]?).toList, d.maximum = c.subimageLinesMax / 2) ∧
    (∀ d ∈ (c.desc[6]?).toList, d.maximum = c.subimageLinesMax)

/-- Two fields of the control register have no bit in common. -/
def fieldsDisjoint : Option BitField → Option BitField → Bool
  | some a, some b => decide (a.offset + a.width ≤ b.offset) || decide (b.offset + b.width ≤ a.offset)
  | _, _ => true

/-- A field lies inside the control register and has at least one bit. -/
def fieldInside : Option BitField → Bool
  | some f => decide (1 ≤ f.width) && decide (f.offset + f.width ≤ 32)
  | none => true

/-- `00_scope.md` R6 clause 4: the layout of the control register. -/
abbrev Config.layoutOk (c : Config) : Prop :=
  c.layout.length = 10 ∧
    (∀ f ∈ c.layout, fieldInside f = true) ∧
    c.layout.Pairwise (fun a b => fieldsDisjoint a b = true) ∧
    ((c.layout[1]?).join.map BitField.width = some 2) ∧
    ((c.layout[3]?).join.map BitField.width = some 1)

/-- `00_scope.md` R6 clauses 5 to 7, with the signs R5 states in its column "type" (assumption log 18). -/
abbrev Config.numbersOk (c : Config) : Prop :=
  0 < c.stepSize ∧ 0 < c.qDenom ∧ 0 < c.hdf ∧ 0 < c.vdf ∧
    c.numTaps = c.hdf * c.vdf ∧
    (c.modelId = .pccd4824 → c.hdf = 2 ∧ c.vdf = 2) ∧
    c.lutLen = c.numTaps * 65536 ∧
    0 < c.resetFramesizeH.toInt ∧ 0 < c.resetFramesizeV.toInt ∧
    0 < c.resetBinsizeH.toInt ∧ 0 < c.resetBinsizeV.toInt ∧
    0 ≤ c.resetReadoutTime.toInt

/-- A legal `CFG` (`00_scope.md` R6). -/
abbrev Config.legal (c : Config) : Prop :=
  c.rangesOk ∧ (∀ d ∈ c.desc, d.ok) ∧ c.architectedOk ∧ c.layoutOk ∧ c.numbersOk

end Sys2Proof
end

