-- ==== Sys2Proof/Decode.lean ====
section
/-!
DEFINITION. Command frames (`30_encoding.md` R71 to R80): the decoder, total on any list of words and
rejecting by name, the encoder, and the reading of a row of `spec/opcode_table.json` as a frame.
-/

namespace Sys2Proof

/-- Why the words at hand are not one of the fifteen commands. -/
inductive Reject where
  /-- The frame is not whole yet: the block waits for the rest (`30_encoding.md` R77). -/
  | incomplete
  /-- `OPC` is 0x00 or 0x07 to 0xFF (`30_encoding.md` R78 (1)). -/
  | badOpcode
  /-- A reserved bit is not zero (`30_encoding.md` R78 (2)). -/
  | badReservedBits
  /-- `NW` is not the one the format requires (`30_encoding.md` R78 (3)). -/
  | badLength
  /-- A well-formed `CFGSEQ` frame whose type is not one of the nine (`30_encoding.md` R79). -/
  | unknownSequence (sub : Byte)
deriving DecidableEq, Repr

/-! ### The header fields (`30_encoding.md` R72) -/

/-- `OPC`, bits 31:24. -/
def headerOpc (h : Word) : Byte := h.extractLsb' 24 8

/-- `SUB`, bits 23:16. -/
def headerSub (h : Word) : Byte := h.extractLsb' 16 8

/-- `RSV`, bits 15:8. -/
def headerRsv (h : Word) : Byte := h.extractLsb' 8 8

/-- `NW`, bits 7:0. -/
def headerNw (h : Word) : Nat := (h.extractLsb' 0 8).toNat

/-- The header with the given fields and `RSV` zero. -/
def header (opc sub nw : Byte) : Word := (opc ++ sub) ++ ((0 : Byte) ++ nw)

/-! ### Operands (`30_encoding.md` R74) -/

/-- A parameter from its less significant and its more significant word. -/
def paramOfWords (lo hi : Word) : S64 := hi ++ lo

/-- The parameters of a `P` frame, two words each, less significant first. -/
def paramsOfWords : List Word → List S64
  | lo :: hi :: rest => paramOfWords lo hi :: paramsOfWords rest
  | _ => []

/-- The two words of a parameter, less significant first. -/
def wordsOfParam (p : S64) : List Word := [p.extractLsb' 0 32, p.extractLsb' 32 32]

/-- The operand words of a `P` frame. -/
def wordsOfParams (ps : List S64) : List Word := ps.flatMap wordsOfParam

/-- Operand word `m`, counted from 1 (`30_encoding.md` R73). -/
def operandWord (ops : List Word) (m : Nat) : Word := ops.getD (m - 1) 0

/-! ### The decoder -/

/-- The sequence types of `30_encoding.md` R79. -/
def sequenceOfType (t : Byte) (ps : List S64) : Option Instr :=
  match t.toNat with
  | 1 => some (.cfgseqOneshot ps)
  | 2 => some (.cfgseqContinuous ps)
  | 3 => some (.cfgseqMultiframe ps)
  | 4 => some (.cfgseqCircular ps)
  | 5 => some (.cfgseqStrobe ps)
  | 6 => some (.cfgseqBulb ps)
  | 7 => some (.cfgseqGeometrical ps)
  | 8 => some (.cfgseqStreak ps)
  | 9 => some (.cfgseqSubimage ps)
  | _ => none

/-- `30_encoding.md` R78 (1): the opcodes R75 lists. -/
def opcodeListed (h : Word) : Bool :=
  decide (1 ≤ (headerOpc h).toNat) && decide ((headerOpc h).toNat ≤ 6)

/-- `30_encoding.md` R78 (2): `RSV` is zero, `SUB` is zero for the opcodes 1 to 4, and bits 7:1 of `SUB`
are zero for opcode 6. -/
def reservedBitsZero (h : Word) : Bool :=
  headerRsv h == 0 &&
    match (headerOpc h).toNat with
    | 1 | 2 | 3 | 4 => headerSub h == 0
    | 6 => (headerSub h).extractLsb' 1 7 == 0
    | _ => true

/-- `30_encoding.md` R78 (3): the operand counts the formats of R73 require. -/
def lengthAllowed (h : Word) : Bool :=
  match (headerOpc h).toNat with
  | 1 | 3 => headerNw h == 1
  | 2 | 4 => headerNw h == 2
  | 5 => headerNw h % 2 == 0 && decide (2 ≤ headerNw h) && decide (headerNw h ≤ 16)
  | 6 => headerNw h == 0
  | _ => false

/-- The command of a frame whose header passed the three checks (`30_encoding.md` R75). -/
def commandOf (h : Word) (ops : List Word) : Except Reject Instr :=
  match (headerOpc h).toNat with
  | 1 => .ok (.rdreg (operandWord ops 1))
  | 2 => .ok (.wrreg (operandWord ops 1) (operandWord ops 2))
  | 3 => .ok (.getps (operandWord ops 1))
  | 4 => .ok (.setps (operandWord ops 1) (operandWord ops 2))
  | 5 =>
    match sequenceOfType (headerSub h) (paramsOfWords ops) with
    | some i => .ok i
    | none => .error (.unknownSequence (headerSub h))
  | 6 => if headerSub h = 0 then .ok .descr else .ok .descrLin
  | _ => .error .badOpcode

/-- A whole frame: the three checks of `30_encoding.md` R78 in their order, then the command. -/
def decodeFrame (h : Word) (ops : List Word) : Except Reject Instr :=
  if opcodeListed h = false then .error .badOpcode
  else if reservedBitsZero h = false then .error .badReservedBits
  else if lengthAllowed h = false then .error .badLength
  else commandOf h ops

/-- The number of words of the frame that begins with header `h` (`30_encoding.md` R71). -/
def frameLength (h : Word) : Nat := 1 + headerNw h

/-- The decoder: reads the first frame of the words at hand and leaves what follows it alone. The end
of the frame is found from `NW` before any other field is looked at (`30_encoding.md` R71). -/
def decode : List Word → Except Reject Instr
  | [] => .error .incomplete
  | h :: rest =>
    if rest.length < headerNw h then .error .incomplete else decodeFrame h (rest.take (headerNw h))

/-! ### The encoder (`30_encoding.md` R75, R79, R81) -/

/-- A `P` frame of sequence type `t`. -/
def encodeSequence (t : Byte) (ps : List S64) : List Word :=
  header 0x05 t (BitVec.ofNat 8 (2 * ps.length)) :: wordsOfParams ps

/-- The frame of a command. -/
def encode : Instr → List Word
  | .rdreg a => [header 0x01 0 1, a]
  | .wrreg a v => [header 0x02 0 2, a, v]
  | .getps a => [header 0x03 0 1, a]
  | .setps a v => [header 0x04 0 2, a, v]
  | .cfgseqOneshot ps => encodeSequence 0x01 ps
  | .cfgseqContinuous ps => encodeSequence 0x02 ps
  | .cfgseqMultiframe ps => encodeSequence 0x03 ps
  | .cfgseqCircular ps => encodeSequence 0x04 ps
  | .cfgseqStrobe ps => encodeSequence 0x05 ps
  | .cfgseqBulb ps => encodeSequence 0x06 ps
  | .cfgseqGeometrical ps => encodeSequence 0x07 ps
  | .cfgseqStreak ps => encodeSequence 0x08 ps
  | .cfgseqSubimage ps => encodeSequence 0x09 ps
  | .descr => [header 0x06 0x00 0]
  | .descrLin => [header 0x06 0x01 0]

/-! ### Words on a byte-wide transport (`20_memory.md` R54), and the opcode table's numbering -/

/-- The bytes of a word, least significant first. -/
def bytesOfWord (w : Word) : List Byte :=
  [w.extractLsb' 0 8, w.extractLsb' 8 8, w.extractLsb' 16 8, w.extractLsb' 24 8]

/-- The words of a byte stream, least significant byte first. -/
def wordsOfBytes : List Byte → List Word
  | b0 :: b1 :: b2 :: b3 :: rest => ((b3 ++ b2) ++ (b1 ++ b0)) :: wordsOfBytes rest
  | _ => []

/-- The `n` low bytes of a number, least significant first. -/
def bytesOfNat : Nat → Nat → List Byte
  | 0, _ => []
  | n + 1, x => BitVec.ofNat 8 x :: bytesOfNat n (x / 256)

/-- The frame whose bits are the low `nbits` bits of `w` in the numbering of `spec/opcode_table.json`:
bit 0 is the least significant bit of the header, the bits above `nbits` are zero, and there are
exactly as many words as the header announces. -/
def tableFrame (nbits w : Nat) : List Word :=
  let x := w % 2 ^ nbits
  wordsOfBytes (bytesOfNat (4 * frameLength (BitVec.ofNat 32 x)) x)

/-- The command the decoder reads from such a frame. -/
def decodeTableWord (nbits w : Nat) : Option Instr :=
  match decode (tableFrame nbits w) with
  | .ok i => some i
  | .error _ => none

end Sys2Proof
end

