-- ==== Sys2Proof/Machine/Framing.lean ====
section
/-!
DEFINITION. The command port: how words become frames (`30_encoding.md` R70, R71, R77), and what the
block answers to a frame that is none of the fifteen commands (`60_exceptions.md` R235,
`42_sequence_config.md` R170).
-/

namespace Sys2Proof.Machine

/-- The words at the head of what the environment has yet to do. -/
def leadingWords : List HostEvent → List Word
  | .word w :: rest => w :: leadingWords rest
  | _ => []

/-- The words the block has or can have before the environment's next move. -/
def State.pendingWords (s : State) : List Word := s.rx ++ leadingWords s.input

/-- The state with the first `n` pending words taken off the command port. -/
def State.consume (s : State) (n : Nat) : State :=
  { s with rx := s.rx.drop n, input := s.input.drop (n - s.rx.length) }

/-- The length of the first pending frame, 0 if there is no header yet. -/
def pendingLength : List Word → Nat
  | [] => 0
  | h :: _ => frameLength h

/-- The header of the first pending frame. -/
def pendingHeader (ws : List Word) : Word := ws.getD 0 0

/-- The words the environment has sent are received; the frame stays unfinished (`30_encoding.md` R77). -/
def State.receive (s : State) : State :=
  { s with rx := s.pendingWords, input := s.input.drop (leadingWords s.input).length }

/-- The answer to a whole frame that is not one of the fifteen commands. An unfinished frame has no
answer (`30_encoding.md` R78, `60_exceptions.md` R235, `42_sequence_config.md` R170). -/
def answerReject (h : Word) (r : Reject) (s : State) : Host.Outcome State Fault Refusal :=
  match r with
  | .incomplete => .next s
  | .badOpcode => .next (s.raise ⟨.badOpcode, h.toNat, 0, 0, 0⟩)
  | .badReservedBits => .next (s.raise ⟨.badReservedBits, h.toNat, 0, 0, 0⟩)
  | .badLength => .next (s.raise ⟨.badLength, h.toNat, headerNw h, 0, 0⟩)
  | .unknownSequence t => runUnknownSequence t s

end Sys2Proof.Machine
end

