-- ==== Sys2Proof/Machine/Environment.lean ====
section
/-!
DEFINITION. The environment moves of `20_memory.md` R62 and reset (`70_reset_and_hazards.md` R260).
-/

namespace Sys2Proof.Machine

/-- `EnvReset` (`70_reset_and_hazards.md` R260): every piece of state takes its reset value, a partly
received frame is discarded, no response is sent. What the environment has yet to do, and the record
of what was sent and answered before, are outside the block and stay (assumption log 17). -/
def State.applyReset (s : State) : State :=
  { State.resetOf s.cfg with
    input := s.input, sent := s.sent, answers := s.answers, epoch := s.epoch + 1 }

/-- `EnvLoadRaw(a, v)`. -/
def loadRaw (a : Nat) (v : Sample) (s : State) : Host.Outcome State Fault Refusal :=
  if a < s.cfg.rawLen then .next { s with raw := s.raw.writeSample a v }
  else .refused .rawAddressOutOfRange

/-- `EnvReadImage(a)`: the answer is `IMG[a]`. -/
def readImage (a : Nat) (s : State) : Host.Outcome State Fault Refusal :=
  if a < s.cfg.imgLen then .next { s with answers := s.answers ++ [.sample a (s.imgSample a)] }
  else .fault .imageAddressOutOfRange

/-- `EnvReadMeta`: the answer is `IMGMETA`. -/
def readMeta (s : State) : Host.Outcome State Fault Refusal :=
  .next { s with answers := s.answers ++ [.imageMeta s.imgMeta] }

/-- `EnvLoadLut(t)`, once only (`70_reset_and_hazards.md` R270). -/
def loadLut (t : List Sample) (s : State) : Host.Outcome State Fault Refusal :=
  if s.lutLoaded = true then .refused .lutAlreadyLoaded
  else if t.length = s.cfg.lutLen then .next { s with lut := cellsOfTable 0 t, lutLoaded := true }
  else .refused .lutWrongLength

/-- `EnvSetReadoutTime(t)`, for `t ≥ 0`. -/
def setReadoutTime (t : S64) (s : State) : Host.Outcome State Fault Refusal :=
  if t.toInt < 0 then .refused .negativeReadoutTime else .next { s with readoutTime := t }

/-- One event that is no word of the command port. A word is received by the command port, not here. -/
def environmentMove (e : HostEvent) (s : State) : Host.Outcome State Fault Refusal :=
  match e with
  | .word w => .next { s with rx := s.rx ++ [w] }
  | .loadRaw a v => loadRaw a v s
  | .readImage a => readImage a s
  | .readMeta => readMeta s
  | .loadLut t => loadLut t s
  | .setReadoutTime t => setReadoutTime t s
  | .reset => .next s.applyReset

/-- A step with no whole frame at hand: the words sent so far are received; else the environment's
next move is made; else the block waits (`30_encoding.md` R77; assumption logs 4, 5). -/
def stepPort (s : State) : Host.Outcome State Fault Refusal :=
  match s.input with
  | [] => .next s
  | .word _ :: _ => .next s.receive
  | e :: rest => environmentMove e { s with input := rest }

/-- Building a block: a configuration that is not legal is refused (`00_scope.md` R6, U7). -/
def boot (c : Config) : Host.Outcome State Fault Refusal :=
  if c.legal then .next (State.resetOf c) else .refused .illegalConfiguration

end Sys2Proof.Machine
end

