-- ==== Sys2Proof/Machine/Step.lean ====
section
/-!
DEFINITION. One step of the block: a whole command, the receipt of part of a frame, one environment
move, or a wait (`70_reset_and_hazards.md` R272, `00_scope.md` R15).
-/

namespace Sys2Proof.Machine

/-- A command takes one step (`70_reset_and_hazards.md` R272): the first pending frame is taken off the
command port, whole, and performed or answered. -/
def step (s : State) : Host.Outcome State Fault Refusal :=
  match decode s.pendingWords with
  | .ok i => exec i (s.consume (pendingLength s.pendingWords))
  | .error .incomplete => stepPort s
  | .error r =>
    answerReject (pendingHeader s.pendingWords) r (s.consume (pendingLength s.pendingWords))

/-- The state with one more frame sent, first on the command port: the frame of `tableFrame`
(assumption log 13). A partly received frame is not left in front of it. -/
def State.withFetchWord (s : State) (nbits w : Nat) : State :=
  { s with rx := [], input := (tableFrame nbits w).map HostEvent.word ++ s.input }

end Sys2Proof.Machine
end

