-- ==== Sys2Proof/Machine/Assembler.lean ====
section
/-!
DEFINITION. The symbols and abbreviations of the spec's assembler syntax (`30_encoding.md` R81, R82).
-/

namespace Sys2Proof.Machine

/-- The address a register symbol stands for: `DH_BASE` plus the offset of the register of that name. -/
def registerAddress (c : Config) (n : RegName) : Option Word :=
  (c.desc.findIdx? (fun d => d.name == n)).map (fun k => BitVec.ofNat 32 (c.dhBase + k))

/-- The id a pseudo-register symbol stands for: `DH_PSEUDO_BASE` plus its index. -/
def pseudoId (c : Config) (p : PseudoReg) : Word := BitVec.ofNat 32 (c.dhPseudoBase + pseudoIndex p)

/-- The parameter `q(x)` of the decimal `x = digits * 10^-places`: the integer `x * Q_DENOM`
(`00_scope.md` R9, `30_encoding.md` R81). DESIGN CHOICE (assumption log 20): the spec states no range for
a decimal of the syntax; one whose `q(x)` is no integer or no `s64` has no parameter, `none`. -/
def qParam (c : Config) (digits : Int) (places : Nat) : Option S64 :=
  let q := floorDiv (digits * c.qDenom) (10 ^ places)
  if q * 10 ^ places = digits * c.qDenom ∧ s64Min ≤ q ∧ q ≤ s64Max then some (BitVec.ofInt 64 q)
  else none

/-- `RDCTL` is `RDREG DH_CONTROL`; `WRCTL value` is `WRREG DH_CONTROL, value` (`30_encoding.md` R82). -/
def rdctl (c : Config) : Instr := .rdreg (BitVec.ofNat 32 c.dhBase)
def wrctl (c : Config) (value : Word) : Instr := .wrreg (BitVec.ofNat 32 c.dhBase) value

end Sys2Proof.Machine
end

