-- ==== Sys2Proof/Safety.lean ====
section
/-!
DEFINITION. What holds of every good state, and what a command leaves alone: the terms in which the
statements of this model speak.
-/

namespace Sys2Proof.Machine

/-! ### Invariants -/

/-- One register is as its descriptor says: within its limits, a power of two where that is asked, and
at its default where it is read-only (`10_state.md` R21, R25). -/
def registerOk (d : RegDesc) (v : Word) : Prop :=
  d.minimum ≤ v.toNat ∧ v.toNat ≤ d.maximum ∧ (d.powerOfTwo = true → isPow2 v = true) ∧
    (d.readOnly = true → v = BitVec.ofNat 32 d.default)

/-- The register invariant (`10_state.md` R25): there are `NREGS` registers, each as its descriptor says. -/
def registersLegal (s : State) : Prop :=
  s.regs.length = s.cfg.nregs ∧ ∀ k, k < s.cfg.nregs → registerOk (descriptor s.cfg k) (s.reg k)

/-- The memories are in canonical form and list no byte outside their capacity (`20_memory.md` R50). -/
def memoriesCanonical (s : State) : Prop :=
  (s.raw.wf ∧ s.raw.within s.cfg.rawLen) ∧ (s.img.wf ∧ s.img.within s.cfg.imgLen) ∧
    (s.lut.wf ∧ s.lut.within s.cfg.lutLen)

/-- Only the vertical frame size of `GEOM` and of `SAVED` can differ from its reset value
(`10_state.md` R33). -/
def geometryStable (s : State) : Prop :=
  s.geom.framesizeH = s.cfg.resetFramesizeH ∧ s.geom.binsizeH = s.cfg.resetBinsizeH ∧
    s.geom.binsizeV = s.cfg.resetBinsizeV ∧
    s.saved.framesizeH = s.cfg.resetFramesizeH ∧ s.saved.binsizeH = s.cfg.resetBinsizeH ∧
    s.saved.binsizeV = s.cfg.resetBinsizeV

/-- `READOUT_TIME` is not negative (`10_state.md` R36). -/
def readoutTimeNonneg (s : State) : Prop := 0 ≤ s.readoutTime.toInt

/-- The lookup table is listed whole once it is loaded (`20_memory.md` R62). -/
def lutWhole (s : State) : Prop :=
  s.lutLoaded = true → ∀ a, a < 2 * s.cfg.lutLen → (s.lut.readByte a).isSome = true

/-- The words left waiting are not a whole frame (`30_encoding.md` R71, R77). -/
def frameUnfinished (s : State) : Prop := decode s.rx = .error .incomplete

/-- A response frame of the block: ten words, a status that is sent, the model's number, and nothing in
the unused bits (`30_encoding.md` R76, `60_exceptions.md` R230, R239, R240). -/
def responseWhole (m : DetectorModel) (r : List Word) : Prop :=
  r.length = 10 ∧ responseStatus r ≤ 10 ∧ responseStatus r ≠ statusCode .timedOut ∧
    responseStatus r ≠ statusCode .unsupported ∧
    (r.getD 0 0).extractLsb' 8 8 = BitVec.ofNat 8 (modelNumber m) ∧ (r.getD 0 0).extractLsb' 24 8 = 0

/-- Every response sent so far is whole. -/
def responsesWhole (s : State) : Prop := ∀ r ∈ s.sent, responseWhole s.cfg.modelId r

/-! ### Frames -/

/-- Everything but the registers, the two geometries and the response port is unchanged: what no
`CFGSEQ`, `WRREG` or `SETPS` may touch (`40_register_access.md` R104, `41_pseudo_register.md` R124,
`42_sequence_config.md` R175). -/
def sameElsewhere (s t : State) : Prop :=
  t.cfg = s.cfg ∧ t.readoutTime = s.readoutTime ∧ t.raw = s.raw ∧ t.img = s.img ∧
    t.imgMeta = s.imgMeta ∧ t.lut = s.lut ∧ t.lutLoaded = s.lutLoaded ∧ t.rx = s.rx ∧
    t.input = s.input ∧ t.answers = s.answers ∧ t.epoch = s.epoch

/-- The response just sent, where `t` is the state after a command that began in `s`. -/
def completedOk (s t : State) : Prop :=
  ∃ r, t.sent = s.sent ++ [r] ∧ responseStatus r = statusCode .ok

/-- What a successful `CFGSEQ` leaves: the control word, the listed registers at the listed values,
every other register as it was, the two geometries, one `OK` response, and nothing else changed. -/
def sequenceLeaves (s t : State) (control : Word) (writes : List (Nat × Int))
    (geom saved : FrameGeometry) : Prop :=
  t.reg 0 = control ∧ (∀ w ∈ writes, t.reg w.1 = BitVec.ofInt 32 w.2) ∧
    (∀ k, k ≠ 0 → k ∉ writes.map Prod.fst → t.reg k = s.reg k) ∧
    t.regs.length = s.regs.length ∧ t.geom = geom ∧ t.saved = saved ∧
    t.sent = s.sent ++ [okResponse s.cfg.modelId 0] ∧ sameElsewhere s t

/-- The geometry after a `CFGSEQ` that does not enter streak-camera mode: restored when the block
leaves streak-camera mode (`42_sequence_config.md` R145, R165). -/
def leftGeometry (s : State) : FrameGeometry := if s.mode = streakCamera then s.saved else s.geom

/-- Only the image, its metadata and the response port differ: what no `DESCR` goes beyond
(`43_descramble.md` R190, R199). -/
def sameButImage (s t : State) : Prop :=
  { s with img := t.img, imgMeta := t.imgMeta, sent := t.sent } = t

/-- The seven frame-based `CFGSEQ` commands (`42_sequence_config.md` R147). -/
def isFrameBased : Instr → Bool
  | .cfgseqOneshot _ => true
  | .cfgseqContinuous _ => true
  | .cfgseqMultiframe _ => true
  | .cfgseqCircular _ => true
  | .cfgseqStrobe _ => true
  | .cfgseqBulb _ => true
  | .cfgseqGeometrical _ => true
  | .rdreg _ => false
  | .wrreg _ _ => false
  | .getps _ => false
  | .setps _ _ => false
  | .cfgseqStreak _ => false
  | .cfgseqSubimage _ => false
  | .descr => false
  | .descrLin => false

/-- The nine `CFGSEQ` commands. -/
def isSequence : Instr → Bool
  | .cfgseqStreak _ => true
  | .cfgseqSubimage _ => true
  | .cfgseqOneshot _ => true
  | .cfgseqContinuous _ => true
  | .cfgseqMultiframe _ => true
  | .cfgseqCircular _ => true
  | .cfgseqStrobe _ => true
  | .cfgseqBulb _ => true
  | .cfgseqGeometrical _ => true
  | .rdreg _ => false
  | .wrreg _ _ => false
  | .getps _ => false
  | .setps _ _ => false
  | .descr => false
  | .descrLin => false

/-! ### Failures in their order -/

/-- The first check that fails, of a list of checks in the order they are made (`60_exceptions.md` R234). -/
def firstFailure : List (Bool × Failure) → Option Failure
  | [] => none
  | (failed, f) :: rest => if failed = true then some f else firstFailure rest

/-- What a frame-based `CFGSEQ` asks for: its type, its parameters, and the frame count, exposure time
and frame time the type derives from them (`42_sequence_config.md` R142, R150 to R156). -/
def frameRequest (c : Config) : Instr → Option (SequenceType × List S64 × Int × Int × Int)
  | .cfgseqOneshot ps => some (.oneshot, ps, 1, param ps 0, param ps 0)
  | .cfgseqContinuous ps => some (.continuous, ps, 1, param ps 0, param ps 0)
  | .cfgseqMultiframe ps => some (.multiframe, ps, roundQ c (param ps 0), param ps 1, param ps 2)
  | .cfgseqCircular ps => some (.circular, ps, roundQ c (param ps 0), param ps 1, param ps 2)
  | .cfgseqStrobe ps => some (.strobe, ps, roundQ c (param ps 0), param ps 1, param ps 2)
  | .cfgseqBulb ps => some (.bulb, ps, roundQ c (param ps 0), param ps 1, param ps 1)
  | .cfgseqGeometrical ps => some (.geometrical, ps, roundQ c (param ps 0), param ps 1, param ps 2)
  | .rdreg _ => none
  | .wrreg _ _ => none
  | .getps _ => none
  | .setps _ _ => none
  | .cfgseqStreak _ => none
  | .cfgseqSubimage _ => none
  | .descr => none
  | .descrLin => none

/-- `DESCR` or `DESCR.LIN`, by the `LIN` bit (`30_encoding.md` R80). -/
def descrOf (lin : Bool) : Instr := if lin then .descrLin else .descr

/-- The moves a successful `DESCR` makes in a state: the same functions its meaning uses. -/
def imageMoves (s : State) : List Move :=
  if s.mode = streakCamera then
    streakMoves s.geom.framesizeH.toInt.toNat s.geom.framesizeV.toInt.toNat
  else fullFrameMoves s.hdf s.geom.framesizeH.toInt.toNat s.geom.framesizeV.toInt.toNat

end Sys2Proof.Machine
end

