-- ==== Sys2Proof/Certificates/Slice0/Obligations.lean ====
section
/-!
DEFINITION. The statements for the provers, from the numbered rules of `spec/`.
-/

open Sys2Proof Sys2Proof.Machine

/-! ### Arithmetic (`00_scope.md` section 5) -/

/-- R10: `floor_div(a, b)` is the greatest `n` with `n * b ≤ a`, the quotient that discards the
remainder where `a` is not negative, and obeys the floor law. -/
def Obligations.FloorDivisionLaw : Prop :=
  ∀ a b : Int, 0 < b →
    floorDiv a b * b ≤ a ∧ a < (floorDiv a b + 1) * b ∧ (∀ n : Int, n * b ≤ a → n ≤ floorDiv a b) ∧
      (0 ≤ a → floorDiv a b = ((a.toNat / b.toNat : Nat) : Int))

/-- R11: `round_div(a, b)` is nearest to `a / b`, and at a tie it is the one further from zero;
`round_q` and `floor_q` are the roundings of one `Q9` value. -/
def Obligations.RoundDivisionNearestTiesAway : Prop :=
  (∀ a b : Int, 0 < b →
    2 * |roundDiv a b * b - a| ≤ b ∧ (2 * |roundDiv a b * b - a| = b → |a| < |roundDiv a b * b|) ∧
      (0 ≤ a → roundDiv a b = floorDiv (2 * a + b) (2 * b)) ∧
      (a < 0 → roundDiv a b = -floorDiv (2 * -a + b) (2 * b))) ∧
    ∀ (c : Config) (p : Int), roundQ c p = roundDiv p c.qDenom ∧ floorQ c p = floorDiv p c.qDenom

/-- R12: `is_pow2(v)` holds of 1, 2, 4, …, 2^31 and of nothing else; it is the bit test of the rule. -/
def Obligations.PowerOfTwoTest : Prop :=
  ∀ v : Word,
    (isPow2 v = true ↔ ∃ e, e < 32 ∧ v.toNat = 2 ^ e) ∧
      (isPow2 v = true ↔ v ≠ 0 ∧ v &&& (v - 1) = 0) ∧ isPow2 0 = false

/-- R13: `field_mask(width)` is 2^width - 1, and `reg_mask(offset, width)` has exactly the bits of the
field set. -/
def Obligations.MasksFillTheirField : Prop :=
  ∀ off wid : Nat, off + wid ≤ 32 →
    (fieldMask wid).toNat = 2 ^ wid - 1 ∧ regMask off wid = fieldMask wid <<< off ∧
      ∀ i, i < 32 → (regMask off wid).getLsbD i = decide (off ≤ i ∧ i < off + wid)

/-! ### Encoding (`30_encoding.md`) -/

/-- R72 to R80: every well-formed command is what the decoder reads from its frame, whatever words
follow the frame. -/
def Obligations.DecodeOfEncode : Prop :=
  ∀ (i : Instr) (rest : List Word), i.wellFormed = true → decode (encode i ++ rest) = .ok i

/-- R72 to R80: whatever the decoder reads as a command is well formed, and the words it read are the
command's frame: no bit of a frame is dropped. -/
def Obligations.EncodeOfDecode : Prop :=
  ∀ (ws : List Word) (i : Instr), decode ws = .ok i →
    i.wellFormed = true ∧ encode i = ws.take (pendingLength ws)

/-- Section 8 of `30_encoding.md`: worked encodings decode to the commands they stand for. -/
def Obligations.WorkedEncodingsDecode : Prop :=
  decode [0x01000001, 0x000186A3] = .ok (.rdreg 100003) ∧
  decode [0x02000002, 0x000186A3, 0x00000028] = .ok (.wrreg 100003 40) ∧
  decode [0x03000001, 0x00030D41] = .ok (.getps 200001) ∧
  decode [0x04000002, 0x00030D44, 0x00000001] = .ok (.setps 200004 1) ∧
  decode [0x05010002, 0x1DCD6500, 0x00000000] = .ok (.cfgseqOneshot [500000000]) ∧
  decode [0x05010002, 0xFFF0BDC0, 0xFFFFFFFF] = .ok (.cfgseqOneshot [-1000000]) ∧
  decode [0x05030006, 0x540BE400, 0x00000002, 0x00989680, 0x00000000, 0x01312D00, 0x00000000]
    = .ok (.cfgseqMultiframe [10000000000, 10000000, 20000000]) ∧
  decode [0x06000000] = .ok .descr ∧
  decode [0x06010000] = .ok .descrLin

/-- R78: a frame with a header that R75 does not list is answered by the first of three checks that
fails, and by nothing else; a frame that passes them is a command or a sequence of unknown type. The
header's fields are written out as arithmetic on its number. -/
def Obligations.IllegalHeadersAnsweredInOrder : Prop :=
  ∀ (s : State) (h : Word) (rest : List Word), s.pendingWords = h :: rest →
    let opc := h.toNat / 2 ^ 24
    let sub := h.toNat / 2 ^ 16 % 256
    let rsv := h.toNat / 2 ^ 8 % 256
    let nw := h.toNat % 256
    let badOpcode := opc = 0 ∨ 7 ≤ opc
    let badReserved := rsv ≠ 0 ∨ (opc ≤ 4 ∧ sub ≠ 0) ∨ (opc = 6 ∧ 2 ≤ sub)
    let badLength := ((opc = 1 ∨ opc = 3) ∧ nw ≠ 1) ∨ ((opc = 2 ∨ opc = 4) ∧ nw ≠ 2) ∨
      (opc = 5 ∧ ¬(nw % 2 = 0 ∧ 2 ≤ nw ∧ nw ≤ 16)) ∨ (opc = 6 ∧ nw ≠ 0)
    nw ≤ rest.length →
    (badOpcode → step s = .next ((s.consume (1 + nw)).raise ⟨.badOpcode, h.toNat, 0, 0, 0⟩)) ∧
    (¬badOpcode → badReserved →
      step s = .next ((s.consume (1 + nw)).raise ⟨.badReservedBits, h.toNat, 0, 0, 0⟩)) ∧
    (¬badOpcode → ¬badReserved → badLength →
      step s = .next ((s.consume (1 + nw)).raise ⟨.badLength, h.toNat, nw, 0, 0⟩)) ∧
    (¬badOpcode → ¬badReserved → ¬badLength →
      (∃ i, decode s.pendingWords = .ok i) ∨ (opc = 5 ∧ (sub = 0 ∨ 10 ≤ sub))) ∧
    [Cause.badOpcode, .badReservedBits, .badLength].map (fun c => (causeStatus c, causeCode c)) =
      [(.illegalCommand, 1), (.illegalCommand, 2), (.illegalCommand, 3)]

/-- R170: a `CFGSEQ` frame whose type is not one of the nine fails `IllegalArgument` and touches
nothing, the duration-trigger bit included. -/
def Obligations.UnknownSequenceTypeFails : Prop :=
  ∀ (s : State) (t : Byte) (ps : List S64) (rest : List Word), paramCountOk ps →
    t.toNat = 0 ∨ 10 ≤ t.toNat → s.pendingWords = encodeSequence t ps ++ rest →
    step s = .next ((s.consume (1 + 2 * ps.length)).raise ⟨.seqUnknownType, t.toNat, 0, 0, 0⟩) ∧
      causeStatus .seqUnknownType = .illegalArgument ∧ causeCode .seqUnknownType = 30

/-- R70, R71, R272: a step with a whole command at hand takes its frame off the command port and runs
exactly that command. -/
def Obligations.StepRunsDecodedCommand : Prop :=
  ∀ (s : State) (i : Instr), decode s.pendingWords = .ok i →
    step s = exec i { s with
      rx := s.rx.drop (pendingLength s.pendingWords)
      input := s.input.drop (pendingLength s.pendingWords - s.rx.length) }

/-- R70, R71: a well-formed command sent as its frame is what the very next step runs, and the rest of
what the environment will do is left for later. -/
def Obligations.SentFrameRunsNext : Prop :=
  ∀ (s : State) (i : Instr), i.wellFormed = true →
    step { s with rx := [], input := (encode i).map HostEvent.word ++ s.input } =
      exec i { s with rx := [] }

/-- R77: an unfinished frame leaves the block waiting: it receives what is sent, sends no response, and
with nothing more sent it stays as it is. -/
def Obligations.UnfinishedFrameWaits : Prop :=
  ∀ (s : State) (ws : List Word), s.input = ws.map HostEvent.word →
    decode (s.rx ++ ws) = .error .incomplete →
    step s = .next { s with rx := s.rx ++ ws, input := [] } ∧
      step { s with rx := s.rx ++ ws, input := [] } = .next { s with rx := s.rx ++ ws, input := [] }

/-! ### Registers (`40_register_access.md`) and pseudo-registers (`41_pseudo_register.md`) -/

/-- R100: `RDREG` reads the register at a mapped address and reports an unmapped one; it writes no
state but the response port. -/
def Obligations.RdregReadsOrReportsUnmapped : Prop :=
  ∀ (s : State) (addr : Word),
    (s.cfg.dhBase ≤ addr.toNat → addr.toNat < s.cfg.dhBase + s.cfg.nregs →
      exec (.rdreg addr) s = .next { s with
        sent := s.sent ++ [okResponse s.cfg.modelId (s.reg (addr.toNat - s.cfg.dhBase))] }) ∧
    (addr.toNat < s.cfg.dhBase ∨ s.cfg.dhBase + s.cfg.nregs ≤ addr.toNat →
      exec (.rdreg addr) s = .next { s with
        sent := s.sent ++ [errorResponse s.cfg.modelId
          ⟨.addrUnmapped, addr.toNat, s.cfg.dhBase, (s.cfg.dhBase : Int) + s.cfg.nregs - 1, 0⟩] }) ∧
    causeStatus .addrUnmapped = .deviceIoError ∧ causeCode .addrUnmapped = 10

/-- R101: `WRREG` tests the address, the read-only flag, the range and the power of two in that order,
reports the first that fails, and else stores the value and changes nothing else. -/
def Obligations.WrregChecksThenStores : Prop :=
  ∀ (s : State) (addr value : Word),
    let k := addr.toNat - s.cfg.dhBase
    let d := descriptor s.cfg k
    let mapped := s.cfg.dhBase ≤ addr.toNat ∧ addr.toNat < s.cfg.dhBase + s.cfg.nregs
    let inRange := d.minimum ≤ value.toNat ∧ value.toNat ≤ d.maximum
    let report := fun f : Failure =>
      Host.Outcome.next { s with sent := s.sent ++ [errorResponse s.cfg.modelId f] }
    (¬mapped → exec (.wrreg addr value) s = report
      ⟨.addrUnmapped, addr.toNat, s.cfg.dhBase, (s.cfg.dhBase : Int) + s.cfg.nregs - 1, 0⟩) ∧
    (mapped → d.readOnly = true →
      exec (.wrreg addr value) s = report ⟨.regReadOnly, addr.toNat, value.toNat, 0, 0⟩) ∧
    (mapped → d.readOnly = false → ¬inRange → exec (.wrreg addr value) s = report
      ⟨.valueOutOfRange, addr.toNat, value.toNat, d.minimum, d.maximum⟩) ∧
    (mapped → d.readOnly = false → inRange → d.powerOfTwo = true → isPow2 value = false →
      exec (.wrreg addr value) s = report ⟨.notPowerOfTwo, addr.toNat, value.toNat, 0, 0⟩) ∧
    (mapped → d.readOnly = false → inRange → (d.powerOfTwo = true → isPow2 value = true) →
      exec (.wrreg addr value) s = .next { s with
        regs := s.regs.set k value, sent := s.sent ++ [okResponse s.cfg.modelId 0] }) ∧
    [Cause.addrUnmapped, .regReadOnly, .valueOutOfRange, .notPowerOfTwo].map
        (fun c => (causeStatus c, causeCode c)) =
      [(.deviceIoError, 10), (.permissionDenied, 11), (.outOfRange, 12), (.invalidValue, 13)]

/-- R103: a value the register takes reads back as it was written. -/
def Obligations.WriteThenReadReturnsValue : Prop :=
  ∀ (s : State) (addr value : Word), s.regs.length = s.cfg.nregs →
    s.cfg.dhBase ≤ addr.toNat → addr.toNat < s.cfg.dhBase + s.cfg.nregs →
    let d := descriptor s.cfg (addr.toNat - s.cfg.dhBase)
    d.readOnly = false → d.minimum ≤ value.toNat → value.toNat ≤ d.maximum →
    (d.powerOfTwo = true → ∃ e, value.toNat = 2 ^ e) →
    ∃ t u, exec (.wrreg addr value) s = .next t ∧ exec (.rdreg addr) t = .next u ∧
      t.sent = s.sent ++ [okResponse s.cfg.modelId 0] ∧
      u.sent = t.sent ++ [okResponse s.cfg.modelId value]

/-- R121: `GETPS` reads the slice of `REG[0]` that a known id names, which is below 2^width, and
reports an unknown id; it writes no state but the response port. -/
def Obligations.GetpsUnpacksField : Prop :=
  ∀ (s : State) (id : Word),
    (∀ f : BitField, s.cfg.dhPseudoBase ≤ id.toNat → id.toNat ≤ s.cfg.dhPseudoBase + 9 →
      (s.cfg.layout[id.toNat - s.cfg.dhPseudoBase]?).join = some f →
      exec (.getps id) s = .next { s with sent := s.sent ++ [okResponse s.cfg.modelId
        ((s.reg 0 >>> f.offset) &&& fieldMask f.width)] } ∧
      ((s.reg 0 >>> f.offset) &&& fieldMask f.width).toNat < 2 ^ f.width) ∧
    (id.toNat < s.cfg.dhPseudoBase ∨ s.cfg.dhPseudoBase + 9 < id.toNat ∨
        (s.cfg.layout[id.toNat - s.cfg.dhPseudoBase]?).join = none →
      exec (.getps id) s = .next { s with sent := s.sent ++ [errorResponse s.cfg.modelId
        ⟨.pseudoUnknownId, id.toNat, 0, 0, 0⟩] }) ∧
    causeStatus .pseudoUnknownId = .illegalArgument ∧ causeCode .pseudoUnknownId = 20

/-- R122: `SETPS` clears the field a known id names and ORs in the value cut to its width, writes back
`REG[0]` only, and reports an unknown id. -/
def Obligations.SetpsPacksField : Prop :=
  ∀ (s : State) (id value : Word),
    (∀ f : BitField, s.cfg.dhPseudoBase ≤ id.toNat → id.toNat ≤ s.cfg.dhPseudoBase + 9 →
      (s.cfg.layout[id.toNat - s.cfg.dhPseudoBase]?).join = some f →
      exec (.setps id value) s = .next { s with
        regs := s.regs.set 0 ((s.reg 0 &&& ~~~regMask f.offset f.width) |||
          ((value &&& fieldMask f.width) <<< f.offset))
        sent := s.sent ++ [okResponse s.cfg.modelId 0] }) ∧
    (id.toNat < s.cfg.dhPseudoBase ∨ s.cfg.dhPseudoBase + 9 < id.toNat ∨
        (s.cfg.layout[id.toNat - s.cfg.dhPseudoBase]?).join = none →
      exec (.setps id value) s = .next { s with sent := s.sent ++ [errorResponse s.cfg.modelId
        ⟨.pseudoUnknownId, id.toNat, 0, 0, 0⟩] }) ∧
    causeStatus .pseudoUnknownId = .illegalArgument ∧ causeCode .pseudoUnknownId = 20

/-- R123: after `SETPS id, v` a `GETPS id` returns the value cut to the field, every bit of `REG[0]`
outside the field is as before, and every other known id reads as before. -/
def Obligations.SetpsRoundTripAndIsolation : Prop :=
  ∀ (s t : State) (id value : Word) (f : BitField), s.cfg.legal → 0 < s.regs.length →
    decodeId s.cfg id = .ok f → exec (.setps id value) s = .next t →
    (∃ u, exec (.getps id) t = .next u ∧
      u.sent = t.sent ++ [okResponse s.cfg.modelId (value &&& fieldMask f.width)]) ∧
    t.reg 0 &&& ~~~regMask f.offset f.width = s.reg 0 &&& ~~~regMask f.offset f.width ∧
    ∀ (other : Word) (g : BitField), other ≠ id → decodeId s.cfg other = .ok g →
      ∃ u w r, exec (.getps other) s = .next u ∧ exec (.getps other) t = .next w ∧
        u.sent = s.sent ++ [r] ∧ w.sent = t.sent ++ [r]

/-! ### Sequence configuration (`42_sequence_config.md`) -/

/-- R143: `check_frames`. -/
def Obligations.FrameCountIsChecked : Prop :=
  ∀ (c : Config) (nf : Int),
    let d := descriptor c 1
    (nf < d.minimum → checkFrames c nf = .error ⟨.seqFramesLow, nf, d.minimum, d.maximum, 0⟩) ∧
    (d.minimum ≤ nf → d.maximum < nf →
      checkFrames c nf = .error ⟨.seqFramesHigh, nf, d.minimum, d.maximum, 0⟩) ∧
    (d.minimum ≤ nf → nf ≤ d.maximum → checkFrames c nf = .ok ()) ∧
    causeStatus .seqFramesLow = .illegalArgument ∧ causeStatus .seqFramesHigh = .wouldExceedLimit

/-- R144: `exposure_steps`. -/
def Obligations.ExposureStepsAreFloored : Prop :=
  ∀ (c : Config) (e : Int),
    let d := descriptor c 2
    let es := floorDiv e c.stepSize
    (e < 0 → exposureSteps c e = .error ⟨.seqExposureNegative, e, c.stepSize, 0, 0⟩) ∧
    (0 ≤ e → es < d.minimum ∨ d.maximum < es →
      exposureSteps c e = .error ⟨.seqExposureStepsRange, e, es, d.minimum, d.maximum⟩) ∧
    (0 ≤ e → d.minimum ≤ es → es ≤ d.maximum → exposureSteps c e = .ok es) ∧
    causeStatus .seqExposureNegative = .illegalArgument ∧
    causeStatus .seqExposureStepsRange = .illegalArgument

/-- R146: `gap_steps`. -/
def Obligations.GapStepsAreBounded : Prop :=
  ∀ (c : Config) (g : Int),
    let gs := floorDiv g c.stepSize
    (g < 0 → gapSteps c g = .error ⟨.seqGapNegative, g, c.stepSize, 1, c.gapStepsMax⟩) ∧
    (0 ≤ g → gs < 1 → gapSteps c g = .error ⟨.seqGapLow, g, gs, 1, c.gapStepsMax⟩) ∧
    (0 ≤ g → 1 ≤ gs → (c.gapStepsMax : Int) < gs →
      gapSteps c g = .error ⟨.seqGapHigh, g, gs, 1, c.gapStepsMax⟩) ∧
    (0 ≤ g → 1 ≤ gs → gs ≤ c.gapStepsMax → gapSteps c g = .ok gs) ∧
    causeStatus .seqGapNegative = .illegalArgument ∧ causeStatus .seqGapLow = .illegalArgument ∧
    causeStatus .seqGapHigh = .illegalArgument

/-- R150, success: `CFGSEQ.ONESHOT` programs one frame and the exposure steps, clears the duration
trigger and the readout mode, restores the geometry on leaving streak-camera mode, and does not touch
the gap register or anything else. -/
def Obligations.OneshotProgramsExposure : Prop :=
  ∀ (ps : List S64) (s : State), 1 ≤ ps.length → 7 ≤ s.regs.length →
    (descriptor s.cfg 1).minimum ≤ 1 → 1 ≤ (descriptor s.cfg 1).maximum →
    let e := param ps 0
    let es := floorDiv e s.cfg.stepSize
    let w := s.reg 0 &&& ~~~durationBit s.cfg
    0 ≤ e → (descriptor s.cfg 2).minimum ≤ es → es ≤ (descriptor s.cfg 2).maximum →
    ∃ t, exec (.cfgseqOneshot ps) s = .next t ∧
      sequenceLeaves s t (if s.mode = fullFrame then w else w &&& ~~~readoutMask s.cfg)
        [(1, 1), (2, es)] (leftGeometry s) s.saved

/-- R151, success: `CFGSEQ.CONTINUOUS` programs one frame, the exposure steps, and a gap of 1 whatever
the parameters and the readout time. -/
def Obligations.ContinuousFixesGap : Prop :=
  ∀ (ps : List S64) (s : State), 1 ≤ ps.length → 7 ≤ s.regs.length →
    (descriptor s.cfg 1).minimum ≤ 1 → 1 ≤ (descriptor s.cfg 1).maximum →
    let e := param ps 0
    let es := floorDiv e s.cfg.stepSize
    let w := s.reg 0 &&& ~~~durationBit s.cfg
    0 ≤ e → (descriptor s.cfg 2).minimum ≤ es → es ≤ (descriptor s.cfg 2).maximum →
    ∃ t, exec (.cfgseqContinuous ps) s = .next t ∧
      sequenceLeaves s t (if s.mode = fullFrame then w else w &&& ~~~readoutMask s.cfg)
        [(1, 1), (2, es), (3, 1)] (leftGeometry s) s.saved

/-- R152, R153, R154, R156, success: `CFGSEQ.MULTIFRAME`, `.CIRCULAR`, `.STROBE` and `.GEOMETRICAL`
program the rounded count, the exposure steps and, for more than one frame, the gap steps of the frame
time less the exposure and the readout time; for one frame the gap register is not written. -/
def Obligations.MultiframeFamilyProgramsGap : Prop :=
  ∀ (mk : List S64 → Instr) (ps : List S64) (s : State),
    mk = .cfgseqMultiframe ∨ mk = .cfgseqCircular ∨ mk = .cfgseqStrobe ∨ mk = .cfgseqGeometrical →
    3 ≤ ps.length → 7 ≤ s.regs.length →
    let nf := roundQ s.cfg (param ps 0)
    let e := param ps 1
    let es := floorDiv e s.cfg.stepSize
    let g := param ps 2 - e - s.readoutTime.toInt
    let gs := floorDiv g s.cfg.stepSize
    let w := s.reg 0 &&& ~~~durationBit s.cfg
    (descriptor s.cfg 1).minimum ≤ nf → nf ≤ (descriptor s.cfg 1).maximum →
    0 ≤ e → (descriptor s.cfg 2).minimum ≤ es → es ≤ (descriptor s.cfg 2).maximum →
    (1 < nf → 0 ≤ g ∧ 1 ≤ gs ∧ gs ≤ s.cfg.gapStepsMax) →
    ∃ t, exec (mk ps) s = .next t ∧
      sequenceLeaves s t (if s.mode = fullFrame then w else w &&& ~~~readoutMask s.cfg)
        (if 1 < nf then [(1, nf), (2, es), (3, gs)] else [(1, nf), (2, es)]) (leftGeometry s) s.saved

/-- R155, success: `CFGSEQ.BULB` of one frame programs one frame and the exposure steps, sets the
duration trigger, clears the readout mode, and does not touch the gap register. -/
def Obligations.BulbSetsDurationTrigger : Prop :=
  ∀ (ps : List S64) (s : State), 2 ≤ ps.length → 7 ≤ s.regs.length →
    roundQ s.cfg (param ps 0) = 1 →
    (descriptor s.cfg 1).minimum ≤ 1 → 1 ≤ (descriptor s.cfg 1).maximum →
    let e := param ps 1
    let es := floorDiv e s.cfg.stepSize
    let w := s.reg 0 ||| durationBit s.cfg
    0 ≤ e → (descriptor s.cfg 2).minimum ≤ es → es ≤ (descriptor s.cfg 2).maximum →
    ∃ t, exec (.cfgseqBulb ps) s = .next t ∧
      sequenceLeaves s t (if s.mode = fullFrame then w else w &&& ~~~readoutMask s.cfg)
        [(1, 1), (2, es)] (leftGeometry s) s.saved

/-- R160, success: `CFGSEQ.STREAK` programs one frame, the lines, the exposure and the gap steps (no
readout time), saves the geometry when it enters streak-camera mode and only then, sets the mode, and
sets the vertical frame size to half the lines. -/
def Obligations.StreakSavesAndHalvesLines : Prop :=
  ∀ (ps : List S64) (s : State), 3 ≤ ps.length → 7 ≤ s.regs.length →
    (descriptor s.cfg 1).minimum ≤ 1 → 1 ≤ (descriptor s.cfg 1).maximum →
    let lines := floorDiv (param ps 0) s.cfg.qDenom
    let e := param ps 1
    let es := floorDiv e s.cfg.stepSize
    let g := param ps 2 - e
    let gs := floorDiv g s.cfg.stepSize
    let w := s.reg 0 &&& ~~~durationBit s.cfg
    (descriptor s.cfg 4).minimum ≤ lines → lines ≤ (descriptor s.cfg 4).maximum →
    0 ≤ e → (descriptor s.cfg 2).minimum ≤ es → es ≤ (descriptor s.cfg 2).maximum →
    0 ≤ g → 1 ≤ gs → gs ≤ s.cfg.gapStepsMax →
    ∃ t, exec (.cfgseqStreak ps) s = .next t ∧
      sequenceLeaves s t
        (if s.mode = streakCamera then w
          else (w &&& ~~~readoutMask s.cfg) ||| (2 <<< pseudoOffset s.cfg .readoutMode))
        [(1, 1), (4, lines), (2, es), (3, gs)]
        { s.geom with framesizeV := BitVec.ofInt 64 (floorDiv lines 2) }
        (if s.mode = streakCamera then s.saved else s.geom)

/-- R165, success: `CFGSEQ.SUBIMAGE` programs one frame, half the lines of a sub-image, the sub-images
per read, the exposure and the gap steps (no readout time), sets the mode, and restores the geometry
on leaving streak-camera mode. -/
def Obligations.SubimageProgramsCounts : Prop :=
  ∀ (ps : List S64) (s : State), 4 ≤ ps.length → 7 ≤ s.regs.length →
    (descriptor s.cfg 1).minimum ≤ 1 → 1 ≤ (descriptor s.cfg 1).maximum →
    0 ≤ param ps 0 → 0 ≤ param ps 1 →
    roundDiv (param ps 0 * param ps 1) (s.cfg.qDenom * s.cfg.qDenom) ≤ s.cfg.subimageLinesMax →
    let sf := floorDiv (param ps 0) (2 * s.cfg.qDenom)
    let sp := floorDiv (param ps 1) s.cfg.qDenom
    let e := param ps 2
    let es := floorDiv e s.cfg.stepSize
    let g := param ps 3 - e
    let gs := floorDiv g s.cfg.stepSize
    let w := s.reg 0 &&& ~~~durationBit s.cfg
    (descriptor s.cfg 5).minimum ≤ sf → sf ≤ (descriptor s.cfg 5).maximum →
    (descriptor s.cfg 6).minimum ≤ sp → sp ≤ (descriptor s.cfg 6).maximum →
    0 ≤ e → (descriptor s.cfg 2).minimum ≤ es → es ≤ (descriptor s.cfg 2).maximum →
    0 ≤ g → 1 ≤ gs → gs ≤ s.cfg.gapStepsMax →
    ∃ t, exec (.cfgseqSubimage ps) s = .next t ∧
      sequenceLeaves s t
        (if s.mode = subImage then w
          else (w &&& ~~~readoutMask s.cfg) ||| (1 <<< pseudoOffset s.cfg .readoutMode))
        [(1, 1), (5, sf), (6, sp), (2, es), (3, gs)] (leftGeometry s) s.saved

/-- R234, R141, R147: a frame-based `CFGSEQ` reports the first check that fails, in the order 31, 32
(Bulb only), 33, 34, 35, 36 and, when a gap is computed, 37, 38, 39; with none it completes `OK`. -/
def Obligations.FrameBasedErrorsInOrder : Prop :=
  ∀ (i : Instr) (s : State) (t : SequenceType) (ps : List S64) (nf e f : Int),
    frameRequest s.cfg i = some (t, ps, nf, e, f) →
    let d1 := descriptor s.cfg 1
    let d2 := descriptor s.cfg 2
    let unit := (s.cfg.stepSize : Int)
    let gapMax := (s.cfg.gapStepsMax : Int)
    let es := floorDiv e unit
    let g := f - e - s.readoutTime.toInt
    let gs := floorDiv g unit
    let gap := t ≠ .continuous ∧ 1 < nf
    let checks : List (Bool × Failure) :=
      [ (decide (ps.length < requiredParams t),
          ⟨.seqParamCount, sequenceCode t, ps.length, requiredParams t, 0⟩),
        (decide (t = .bulb ∧ nf ≠ 1), ⟨.seqBulbFrames, nf, 1, 0, 0⟩),
        (decide (nf < d1.minimum), ⟨.seqFramesLow, nf, d1.minimum, d1.maximum, 0⟩),
        (decide ((d1.maximum : Int) < nf), ⟨.seqFramesHigh, nf, d1.minimum, d1.maximum, 0⟩),
        (decide (e < 0), ⟨.seqExposureNegative, e, unit, 0, 0⟩),
        (decide (es < d2.minimum ∨ (d2.maximum : Int) < es),
          ⟨.seqExposureStepsRange, e, es, d2.minimum, d2.maximum⟩),
        (decide (gap ∧ g < 0), ⟨.seqGapNegative, g, unit, 1, gapMax⟩),
        (decide (gap ∧ gs < 1), ⟨.seqGapLow, g, gs, 1, gapMax⟩),
        (decide (gap ∧ gapMax < gs), ⟨.seqGapHigh, g, gs, 1, gapMax⟩) ]
    (∀ x, firstFailure checks = some x → exec i s = .next (s.raise x)) ∧
    (firstFailure checks = none → ∃ u, exec i s = .next u ∧ completedOk s u)

/-- R234, R160: `CFGSEQ.STREAK` reports the first check that fails, in the order 31, 33, 34, 40, 35, 36,
37, 38, 39; with none it completes `OK`. -/
def Obligations.StreakErrorsInOrder : Prop :=
  ∀ (ps : List S64) (s : State),
    let d1 := descriptor s.cfg 1
    let d2 := descriptor s.cfg 2
    let d4 := descriptor s.cfg 4
    let unit := (s.cfg.stepSize : Int)
    let gapMax := (s.cfg.gapStepsMax : Int)
    let lines := floorDiv (param ps 0) s.cfg.qDenom
    let e := param ps 1
    let es := floorDiv e unit
    let g := param ps 2 - e
    let gs := floorDiv g unit
    let checks : List (Bool × Failure) :=
      [ (decide (ps.length < 3), ⟨.seqParamCount, 8, ps.length, 3, 0⟩),
        (decide (1 < d1.minimum), ⟨.seqFramesLow, 1, d1.minimum, d1.maximum, 0⟩),
        (decide (d1.maximum < 1), ⟨.seqFramesHigh, 1, d1.minimum, d1.maximum, 0⟩),
        (decide (lines < d4.minimum ∨ (d4.maximum : Int) < lines),
          ⟨.seqStreakLinesRange, param ps 0, lines, d4.minimum, d4.maximum⟩),
        (decide (e < 0), ⟨.seqExposureNegative, e, unit, 0, 0⟩),
        (decide (es < d2.minimum ∨ (d2.maximum : Int) < es),
          ⟨.seqExposureStepsRange, e, es, d2.minimum, d2.maximum⟩),
        (decide (g < 0), ⟨.seqGapNegative, g, unit, 1, gapMax⟩),
        (decide (gs < 1), ⟨.seqGapLow, g, gs, 1, gapMax⟩),
        (decide (gapMax < gs), ⟨.seqGapHigh, g, gs, 1, gapMax⟩) ]
    (∀ x, firstFailure checks = some x → exec (.cfgseqStreak ps) s = .next (s.raise x)) ∧
    (firstFailure checks = none → ∃ u, exec (.cfgseqStreak ps) s = .next u ∧ completedOk s u)

/-- R234, R165: `CFGSEQ.SUBIMAGE` reports the first check that fails, in the order 31, 42, 41, 33, 34,
43, 44, 35, 36, 37, 38, 39; with none it completes `OK`. -/
def Obligations.SubimageErrorsInOrder : Prop :=
  ∀ (ps : List S64) (s : State),
    let d1 := descriptor s.cfg 1
    let d2 := descriptor s.cfg 2
    let d5 := descriptor s.cfg 5
    let d6 := descriptor s.cfg 6
    let unit := (s.cfg.stepSize : Int)
    let gapMax := (s.cfg.gapStepsMax : Int)
    let q := (s.cfg.qDenom : Int)
    let p0 := param ps 0
    let p1 := param ps 1
    let total := roundDiv (p0 * p1) (q * q)
    let sf := floorDiv p0 (2 * q)
    let sp := floorDiv p1 q
    let e := param ps 2
    let es := floorDiv e unit
    let g := param ps 3 - e
    let gs := floorDiv g unit
    let checks : List (Bool × Failure) :=
      [ (decide (ps.length < 4), ⟨.seqParamCount, 9, ps.length, 4, 0⟩),
        (decide (p0 < 0 ∨ p1 < 0), ⟨.seqSubimageParamNegative, p0, p1, 0, 0⟩),
        (decide ((s.cfg.subimageLinesMax : Int) < total),
          ⟨.seqSubimageTotal, total, s.cfg.subimageLinesMax, p0, p1⟩),
        (decide (1 < d1.minimum), ⟨.seqFramesLow, 1, d1.minimum, d1.maximum, 0⟩),
        (decide (d1.maximum < 1), ⟨.seqFramesHigh, 1, d1.minimum, d1.maximum, 0⟩),
        (decide (sf < d5.minimum ∨ (d5.maximum : Int) < sf),
          ⟨.seqSubframeRange, p0, sf, d5.minimum, d5.maximum⟩),
        (decide (sp < d6.minimum ∨ (d6.maximum : Int) < sp),
          ⟨.seqSubimagesRange, p1, sp, d6.minimum, d6.maximum⟩),
        (decide (e < 0), ⟨.seqExposureNegative, e, unit, 0, 0⟩),
        (decide (es < d2.minimum ∨ (d2.maximum : Int) < es),
          ⟨.seqExposureStepsRange, e, es, d2.minimum, d2.maximum⟩),
        (decide (g < 0), ⟨.seqGapNegative, g, unit, 1, gapMax⟩),
        (decide (gs < 1), ⟨.seqGapLow, g, gs, 1, gapMax⟩),
        (decide (gapMax < gs), ⟨.seqGapHigh, g, gs, 1, gapMax⟩) ]
    (∀ x, firstFailure checks = some x → exec (.cfgseqSubimage ps) s = .next (s.raise x)) ∧
    (firstFailure checks = none → ∃ u, exec (.cfgseqSubimage ps) s = .next u ∧ completedOk s u)

/-- R173: the readout-mode machine. A successful `CFGSEQ` moves the mode to FullFrame, StreakCamera or
SubImage by its type, with the geometry action of the table; a failed one leaves mode and geometry; a
raw write of the mode takes no geometry action. -/
def Obligations.ReadoutModeMachine : Prop :=
  (∀ (s t : State) (a v : Word), exec (.wrreg a v) s = .next t ∨ exec (.setps a v) s = .next t →
    t.geom = s.geom ∧ t.saved = s.saved) ∧
  ∀ (i : Instr) (s t : State), s.cfg.legal → 7 ≤ s.regs.length → isSequence i = true →
    exec i s = .next t →
    (¬completedOk s t → t.mode = s.mode ∧ t.geom = s.geom ∧ t.saved = s.saved) ∧
    (completedOk s t →
      (isFrameBased i = true →
        t.mode = 0 ∧ t.saved = s.saved ∧ t.geom = (if s.mode = 2 then s.saved else s.geom)) ∧
      (∀ ps, i = .cfgseqStreak ps →
        t.mode = 2 ∧ t.saved = (if s.mode = 2 then s.saved else s.geom) ∧
          t.geom = { s.geom with framesizeV := t.geom.framesizeV } ∧
          t.geom.framesizeV.toInt = (t.reg 4).toNat / 2) ∧
      (∀ ps, i = .cfgseqSubimage ps →
        t.mode = 1 ∧ t.saved = s.saved ∧ t.geom = (if s.mode = 2 then s.saved else s.geom)))

/-- R173, last sentence: entering streak-camera mode and then leaving it for FullFrame gives back the
frame and bin sizes exactly as they were, whatever `CFGSEQ.STREAK` command, successful or not, is sent
in between. -/
def Obligations.StreakRoundTripRestoresGeometry : Prop :=
  ∀ (s t u w : State) (ps qs : List S64) (i : Instr), s.cfg.legal → 7 ≤ s.regs.length →
    s.mode ≠ streakCamera → isFrameBased i = true →
    exec (.cfgseqStreak ps) s = .next t → completedOk s t →
    exec (.cfgseqStreak qs) t = .next u →
    exec i u = .next w → completedOk u w →
    w.geom = s.geom ∧ w.mode = fullFrame

/-- R175: no `CFGSEQ` changes a memory, the image metadata, the table or its flag, the readout time, a
register at offset 7 or above, a bit of `REG[0]` outside `DT_BIT` and `READOUT_MASK`, or the horizontal
frame size except by a restore; and none reads a memory, the metadata, the flag, or a register at
offset 7 or above: with other values there it does the same. -/
def Obligations.CfgseqFrame : Prop :=
  ∀ (i : Instr) (s t : State), isSequence i = true → exec i s = .next t →
    sameElsewhere s t ∧ (∀ k, 7 ≤ k → t.reg k = s.reg k) ∧
    (s.cfg.legal →
      t.reg 0 &&& ~~~(durationBit s.cfg ||| readoutMask s.cfg) =
        s.reg 0 &&& ~~~(durationBit s.cfg ||| readoutMask s.cfg)) ∧
    (t.geom.framesizeH = s.geom.framesizeH ∨ t.geom = s.saved) ∧
    t.hdf = s.hdf ∧ t.vdf = s.vdf ∧ t.numTaps = s.numTaps ∧
    (∀ (raw img lut : Memory) (m : ImageMeta) (b : Bool),
      exec i { s with raw := raw, img := img, lut := lut, imgMeta := m, lutLoaded := b } =
        .next { t with raw := raw, img := img, lut := lut, imgMeta := m, lutLoaded := b }) ∧
    ∀ (k : Nat) (v : Word), 7 ≤ k → exec i (s.setReg k v) = .next (t.setReg k v)

/-! ### Descrambling (`43_descramble.md`) -/

/-- R194, R192: `DESCR` on a model PCCD-4824 outside streak-camera mode, on a frame that fits, writes
the image of the four-tap mapping in its closed form, touches no byte beyond it, and sets the
metadata. -/
def Obligations.DescrWritesFourTapImage : Prop :=
  ∀ (s : State) (h v : Nat), s.cfg.legal → s.cfg.modelId = .pccd4824 → s.mode ≠ streakCamera →
    s.geom.framesizeH.toInt = h → s.geom.framesizeV.toInt = v → 0 < h → 0 < v →
    h % 2 = 0 → v % 2 = 0 → h * v ≤ s.cfg.rawLen → h * v ≤ s.cfg.imgLen →
    ∃ t, exec .descr s = .next t ∧
      (∀ i j, i < v / 2 → j < h / 2 →
        let g := 4 * (i * (h / 2) + j)
        t.imgSample (i * h + j) = s.rawSample (g + 2) ∧
        t.imgSample (i * h + (h - 1 - j)) = s.rawSample (g + 3) ∧
        t.imgSample ((v - 1 - i) * h + j) = s.rawSample (g + 1) ∧
        t.imgSample ((v - 1 - i) * h + (h - 1 - j)) = s.rawSample g) ∧
      (∀ a, 2 * (h * v) ≤ a → t.img.readByte a = s.img.readByte a) ∧
      t.imgMeta = ⟨BitVec.ofNat 64 v, BitVec.ofNat 64 h⟩ ∧
      t.sent = s.sent ++ [okResponse s.cfg.modelId 0] ∧ sameButImage s t

/-- R195: `DESCR.LIN` with a loaded table writes the same image with each sample taken through the
curve of its destination's sector. -/
def Obligations.DescrLinWritesLinearisedImage : Prop :=
  ∀ (s : State) (h v : Nat), s.cfg.legal → s.cfg.modelId = .pccd4824 → s.mode ≠ streakCamera →
    s.lutLoaded = true →
    s.geom.framesizeH.toInt = h → s.geom.framesizeV.toInt = v → 0 < h → 0 < v →
    h % 2 = 0 → v % 2 = 0 → h * v ≤ s.cfg.rawLen → h * v ≤ s.cfg.imgLen →
    ∃ t, exec .descrLin s = .next t ∧
      (∀ i j, i < v / 2 → j < h / 2 →
        let g := 4 * (i * (h / 2) + j)
        t.imgSample (i * h + j) = s.lutEntry (0 * 65536 + (s.rawSample (g + 2)).toNat) ∧
        t.imgSample (i * h + (h - 1 - j)) = s.lutEntry (1 * 65536 + (s.rawSample (g + 3)).toNat) ∧
        t.imgSample ((v - 1 - i) * h + j) = s.lutEntry (2 * 65536 + (s.rawSample (g + 1)).toNat) ∧
        t.imgSample ((v - 1 - i) * h + (h - 1 - j)) =
          s.lutEntry (3 * 65536 + (s.rawSample g).toNat)) ∧
      (∀ a, 2 * (h * v) ≤ a → t.img.readByte a = s.img.readByte a) ∧
      t.imgMeta = ⟨BitVec.ofNat 64 v, BitVec.ofNat 64 h⟩ ∧
      t.sent = s.sent ++ [okResponse s.cfg.modelId 0] ∧ sameButImage s t

/-- R196, R192: `DESCR` in streak-camera mode on a model PCCD-170170 or PCCD-4824, on a frame that fits,
writes half the lines, each from four samples of every group of sixteen, and touches no byte beyond
them; a frame of one line gives an image of no rows. -/
def Obligations.DescrWritesStreakImage : Prop :=
  ∀ (s : State) (w v : Nat), s.cfg.modelId ≠ .pccd16080 → s.mode = streakCamera →
    s.geom.framesizeH.toInt = w → s.geom.framesizeV.toInt = v → 0 < w → 0 < v → w % 4 = 0 →
    v / 2 * 4 * w ≤ s.cfg.rawLen → v / 2 * w ≤ s.cfg.imgLen →
    ∃ t, exec .descr s = .next t ∧
      (∀ i j, i < v / 2 → j < w / 2 / 2 →
        let rb := i * 4 * w
        let ib := i * w
        let half := w / 2
        t.imgSample (ib + j) = s.rawSample (rb + 16 * j + 2) ∧
        t.imgSample (ib + (half - 1 - j)) = s.rawSample (rb + 16 * j + 3) ∧
        t.imgSample (ib + half + j) = s.rawSample (rb + 16 * j + 1) ∧
        t.imgSample (ib + half + (half - 1 - j)) = s.rawSample (rb + 16 * j)) ∧
      (∀ a, 2 * (v / 2 * w) ≤ a → t.img.readByte a = s.img.readByte a) ∧
      t.imgMeta = ⟨BitVec.ofNat 64 (v / 2), BitVec.ofNat 64 w⟩ ∧
      t.sent = s.sent ++ [okResponse s.cfg.modelId 0] ∧ sameButImage s t

/-- R194: the four-tap mapping is a bijection: every raw index and every image index of the frame
occurs exactly once. -/
def Obligations.FourTapMappingIsBijection : Prop :=
  ∀ h v : Nat, h % 2 = 0 → v % 2 = 0 →
    ((fullFrameMoves 2 h v).map Move.dst).Perm (List.range (h * v)) ∧
      ((fullFrameMoves 2 h v).map Move.src).Perm (List.range (h * v))

/-- R196 point (2): the streak-camera mapping writes every sample of its image exactly once, and reads
inside the raw samples of its lines. -/
def Obligations.StreakMappingTilesLines : Prop :=
  ∀ w v : Nat, w % 4 = 0 →
    ((streakMoves w v).map Move.dst).Perm (List.range (v / 2 * w)) ∧
      ∀ m ∈ streakMoves w v, m.src < v / 2 * 4 * w

/-- R190, R191, R192, R195, R197, R234: `DESCR` and `DESCR.LIN` report the first check that fails, in
the order 50, 53, 51, 52; with none they complete `OK`. Nothing of the image changes on an error. -/
def Obligations.DescrErrorsInOrder : Prop :=
  ∀ (s : State) (lin : Bool),
    let m := s.cfg.modelId
    let mode := s.mode
    let streaking := mode = 2
    let h := s.geom.framesizeH.toInt
    let v := s.geom.framesizeV.toInt
    let raw := (s.cfg.rawLen : Int)
    let img := (s.cfg.imgLen : Int)
    let hdf := (s.cfg.hdf : Int)
    let vdf := (s.cfg.vdf : Int)
    let lines := floorDiv v 2
    let checks : List (Bool × Failure) :=
      [ (decide (m = .pccd16080 ∨ (streaking ∧ lin = true) ∨ (m = .pccd170170 ∧ ¬streaking)),
          ⟨.dscNotImplemented, modelNumber m, mode.toNat, if lin then 1 else 0, 0⟩),
        (decide (lin = true ∧ s.lutLoaded = false), ⟨.dscLut, s.cfg.lutLen, 0, 0, 0⟩),
        (decide (¬streaking ∧ (h ≤ 0 ∨ v ≤ 0 ∨ h % hdf ≠ 0 ∨ v % vdf ≠ 0)),
          ⟨.dscGeometry, h, v, hdf, vdf⟩),
        (decide (streaking ∧ (h ≤ 0 ∨ v ≤ 0 ∨ h % 4 ≠ 0)), ⟨.dscGeometry, h, v, 4, 1⟩),
        (decide (¬streaking ∧ (raw < h * v ∨ img < h * v)), ⟨.dscBuffer, h * v, raw, h * v, img⟩),
        (decide (streaking ∧ (raw < lines * 4 * h ∨ img < lines * h)),
          ⟨.dscBuffer, lines * 4 * h, raw, lines * h, img⟩) ]
    (∀ x, firstFailure checks = some x → exec (descrOf lin) s = .next (s.raise x)) ∧
    (firstFailure checks = none → ∃ u, exec (descrOf lin) s = .next u ∧ completedOk s u)

/-- R190, R199: `DESCR` and `DESCR.LIN` change nothing but the image, its metadata and the response
port, and no byte of the image outside the samples their moves store to. -/
def Obligations.DescrFrame : Prop :=
  ∀ (s t : State) (lin : Bool), exec (descrOf lin) s = .next t →
    sameButImage s t ∧
      ∀ a, (∀ m ∈ imageMoves s, a ≠ 2 * m.dst ∧ a ≠ 2 * m.dst + 1) →
        t.img.readByte a = s.img.readByte a

/-- R195: with an identity table `DESCR.LIN` and `DESCR` write the same image. -/
def Obligations.IdentityTableMakesPlainImage : Prop :=
  ∀ (s t u : State), (∀ n v, n < 4 → v < 65536 → s.lutEntry (n * 65536 + v) = BitVec.ofNat 16 v) →
    exec .descr s = .next t → exec .descrLin s = .next u → completedOk s u →
    u.img = t.img ∧ u.imgMeta = t.imgMeta

/-! ### The whole machine (`60_exceptions.md`) -/

/-- R76, R230, R239, R240: every command, in every state, ends with exactly one response, ten words
with a status that is sent and the model's number; no command faults or is refused. -/
def Obligations.EveryCommandAnswersOnce : Prop :=
  ∀ (i : Instr) (s : State), ∃ t r, exec i s = .next t ∧ t.sent = s.sent ++ [r] ∧
    responseWhole s.cfg.modelId r

/-- R236: a command whose status is not `OK` changes no architectural state: only its response is sent;
and so it is with every frame that is not one of the fifteen commands. -/
def Obligations.FailedCommandChangesNothing : Prop :=
  (∀ (i : Instr) (s t : State), exec i s = .next t → ¬completedOk s t →
    t = { s with sent := t.sent }) ∧
  ∀ (h : Word) (r : Reject) (s t : State), answerReject h r s = .next t →
    t = { s with sent := t.sent }

/-- R237: nothing of an outcome is kept. What was sent before, what is still to be received and what the
environment read have no effect on what a command does. -/
def Obligations.CommandsIgnorePorts : Prop :=
  ∀ (i : Instr) (s : State), ∃ t r, exec i s = .next t ∧
    ∀ (sent : List (List Word)) (rx : List Word) (input : List HostEvent) (answers : List EnvAnswer),
      exec i { s with sent := sent, rx := rx, input := input, answers := answers } =
        .next { t with sent := sent ++ [r], rx := rx, input := input, answers := answers }

/-- R231, R230: every cause with its number and the number of the one status it belongs to. -/
def Obligations.CausesAreNumbered : Prop :=
  ∀ c : Cause, (c, causeCode c, statusCode (causeStatus c)) ∈
    [ (Cause.badOpcode, 1, 10), (.badReservedBits, 2, 10), (.badLength, 3, 10),
      (.addrUnmapped, 10, 1), (.regReadOnly, 11, 6), (.valueOutOfRange, 12, 7),
      (.notPowerOfTwo, 13, 8), (.pseudoUnknownId, 20, 3), (.seqUnknownType, 30, 3),
      (.seqParamCount, 31, 3), (.seqBulbFrames, 32, 4), (.seqFramesLow, 33, 3),
      (.seqFramesHigh, 34, 4), (.seqExposureNegative, 35, 3), (.seqExposureStepsRange, 36, 3),
      (.seqGapNegative, 37, 3), (.seqGapLow, 38, 3), (.seqGapHigh, 39, 3),
      (.seqStreakLinesRange, 40, 3), (.seqSubimageTotal, 41, 4), (.seqSubimageParamNegative, 42, 3),
      (.seqSubframeRange, 43, 3), (.seqSubimagesRange, 44, 3), (.dscNotImplemented, 50, 9),
      (.dscGeometry, 51, 3), (.dscBuffer, 52, 3), (.dscLut, 53, 3) ]

/-- R231: an error response carries the status of its cause, the cause, no data, and the four values,
each saturated to `s64` (R232), as 32-bit words, less significant first (R76). -/
def Obligations.ErrorResponseCarriesItsCause : Prop :=
  ∀ (m : DetectorModel) (f : Failure),
    let r := errorResponse m f
    responseStatus r = statusCode (causeStatus f.cause) ∧ responseCause r = causeCode f.cause ∧
      responseData r = 0 ∧ responseStatus r ≠ 0 ∧ r.length = 10 ∧
      paramOfWords (r.getD 2 0) (r.getD 3 0) = saturateS64 f.e0 ∧
      paramOfWords (r.getD 4 0) (r.getD 5 0) = saturateS64 f.e1 ∧
      paramOfWords (r.getD 6 0) (r.getD 7 0) = saturateS64 f.e2 ∧
      paramOfWords (r.getD 8 0) (r.getD 9 0) = saturateS64 f.e3 ∧
      (saturateS64 f.e0).toInt = max (-2 ^ 63) (min (2 ^ 63 - 1) f.e0)

/-! ### Invariants -/

/-- R2, R21, R37: no step changes the configuration. -/
def Obligations.StepKeepsConfiguration : Prop :=
  ∀ s t : State, step s = .next t → t.cfg = s.cfg

/-- R25, R21: under a legal configuration every step keeps every register within its limits, a power of
two where that is asked, and at its default where it is read-only. -/
def Obligations.StepKeepsRegistersLegal : Prop :=
  ∀ s t : State, s.cfg.legal → registersLegal s → step s = .next t → registersLegal t

/-- R50: under a legal configuration every step keeps the memories in canonical form and inside their
capacity. -/
def Obligations.StepKeepsMemoriesCanonical : Prop :=
  ∀ s t : State, s.cfg.legal → memoriesCanonical s → step s = .next t → memoriesCanonical t

/-- R33: every step keeps the horizontal frame size and the bin sizes of `GEOM` and `SAVED` at their
reset values. -/
def Obligations.StepKeepsGeometryStable : Prop :=
  ∀ s t : State, geometryStable s → step s = .next t → geometryStable t

/-- R36, R62: under a legal configuration every step keeps the readout time from being negative, and a
loaded table whole. -/
def Obligations.StepKeepsTimeAndTable : Prop :=
  ∀ s t : State, s.cfg.legal → readoutTimeNonneg s ∧ lutWhole s → step s = .next t →
    readoutTimeNonneg t ∧ lutWhole t

/-- R71, R76, R240: every step keeps the words left waiting from being a whole frame, and every response
sent whole. -/
def Obligations.StepKeepsPortsWhole : Prop :=
  ∀ s t : State, frameUnfinished s ∧ responsesWhole s → step s = .next t →
    frameUnfinished t ∧ responsesWhole t

/-- R43, R6: the state after reset of every legal configuration, the reference one among them, meets
every invariant. -/
def Obligations.ResetMeetsInvariants : Prop :=
  (∀ c : Config, c.legal →
    registersLegal (State.resetOf c) ∧ memoriesCanonical (State.resetOf c) ∧
      geometryStable (State.resetOf c) ∧ readoutTimeNonneg (State.resetOf c) ∧
      lutWhole (State.resetOf c) ∧ frameUnfinished (State.resetOf c) ∧
      responsesWhole (State.resetOf c)) ∧
    State.reset.cfg.legal ∧ State.reset = State.resetOf State.reset.cfg

/-! ### Reset and the environment (`70_reset_and_hazards.md`, `20_memory.md` R62) -/

/-- R43: the value after reset of every piece of state that has one. Of the memories, which
R43 leaves unspecified, it says nothing. -/
def Obligations.ResetValues : Prop :=
  ∀ c : Config,
    let s := State.resetOf c
    (∀ k, k < c.nregs → s.reg k = BitVec.ofNat 32 (descriptor c k).default) ∧
      (∀ p f, layoutField c (pseudoIndex p) = some f → 0 < c.nregs →
        s.pseudo p = some (extractField f (BitVec.ofNat 32 (descriptor c 0).default))) ∧
      (0 < c.nregs → s.mode = modeOf c (BitVec.ofNat 32 (descriptor c 0).default)) ∧
      s.geom = ⟨c.resetFramesizeH, c.resetFramesizeV, c.resetBinsizeH, c.resetBinsizeV⟩ ∧
      s.saved = s.geom ∧ s.hdf = c.hdf ∧ s.vdf = c.vdf ∧ s.numTaps = c.numTaps ∧
      s.readoutTime = c.resetReadoutTime ∧ s.imgMeta = ⟨0, 0⟩ ∧ s.lutLoaded = false

/-- R260: reset gives every piece of state its reset value, discards a partly received frame, and sends
no response; the words sent after it begin a new frame. That the words not yet received, and the
records of what was sent and answered, outlast a reset is the model's choice (assumption log 17). -/
def Obligations.ResetDiscardsPartialFrame : Prop :=
  ∀ (s : State) (rest : List HostEvent), s.input = .reset :: rest → frameUnfinished s →
    step s = .next { State.resetOf s.cfg with
      input := rest, sent := s.sent, answers := s.answers, epoch := s.epoch + 1 }

/-- R62: `EnvLoadRaw` writes one sample of `RAW` and nothing else. -/
def Obligations.LoadRawWritesOneSample : Prop :=
  ∀ (s : State) (a : Nat) (v : Sample) (rest : List HostEvent),
    s.input = .loadRaw a v :: rest → frameUnfinished s → a < s.cfg.rawLen →
    ∃ t, step s = .next t ∧ t.rawSample a = v ∧ (∀ b, b ≠ a → t.rawSample b = s.rawSample b) ∧
      t = { s with input := rest, raw := t.raw }

/-- R62, R270: `EnvLoadLut` of a table of the right length loads every entry and sets the flag, and
nothing else; a second load is refused. -/
def Obligations.LutLoadsOnce : Prop :=
  ∀ (s : State) (l : List Sample) (rest : List HostEvent), s.input = .loadLut l :: rest →
    frameUnfinished s →
    (s.lutLoaded = true → step s = .refused .lutAlreadyLoaded) ∧
    (s.lutLoaded = false → l.length = s.cfg.lutLen →
      ∃ t, step s = .next t ∧ t.lutLoaded = true ∧
        (∀ n, n < s.cfg.lutLen → t.lutEntry n = l.getD n 0) ∧
        t = { s with input := rest, lut := t.lut, lutLoaded := true })

/-- R39, R270: once loaded, the table stays as it is until a reset. -/
def Obligations.LoadedTableIsImmutable : Prop :=
  ∀ s t : State, s.lutLoaded = true → step s = .next t →
    (t.lut = s.lut ∧ t.lutLoaded = true ∧ t.epoch = s.epoch) ∨
      (t.lutLoaded = false ∧ t.epoch = s.epoch + 1)

/-- R62: the environment never writes `REG`, `GEOM`, `SAVED`, `IMG` or `IMGMETA` but by a reset, and its
other moves do what the table of the rule says. -/
def Obligations.EnvironmentMovesAsTabled : Prop :=
  ∀ (s t : State) (e : HostEvent), e ≠ .reset → environmentMove e s = .next t →
    (t.regs = s.regs ∧ t.geom = s.geom ∧ t.saved = s.saved ∧ t.img = s.img ∧ t.imgMeta = s.imgMeta ∧
      t.cfg = s.cfg ∧ t.sent = s.sent ∧ t.epoch = s.epoch) ∧
    (∀ a, e = .readImage a → t = { s with answers := s.answers ++ [.sample a (s.imgSample a)] }) ∧
    (e = .readMeta → t = { s with answers := s.answers ++ [.imageMeta s.imgMeta] }) ∧
    (∀ r, e = .setReadoutTime r → t = { s with readoutTime := r } ∧ 0 ≤ r.toInt)

/-- U13, U7, R50: the moves that are not allowed stop the model by name, and a configuration that is not
legal builds no block. The stop on an image address that does not exist is the model's choice
(assumption log 10). -/
def Obligations.MovesNotAllowedStop : Prop :=
  ∀ (s : State),
    (∀ a v, s.cfg.rawLen ≤ a → environmentMove (.loadRaw a v) s = .refused .rawAddressOutOfRange) ∧
    (∀ a, s.cfg.imgLen ≤ a → environmentMove (.readImage a) s = .fault .imageAddressOutOfRange) ∧
    (∀ l, s.lutLoaded = false → l.length ≠ s.cfg.lutLen →
      environmentMove (.loadLut l) s = .refused .lutWrongLength) ∧
    (∀ r : S64, r.toInt < 0 →
      environmentMove (.setReadoutTime r) s = .refused .negativeReadoutTime) ∧
    (∀ c : Config, ¬c.legal → boot c = .refused .illegalConfiguration) ∧
    (∀ c : Config, c.legal → boot c = .next (State.resetOf c))
end

