-- ==== Sys2Proof/Laws/State.lean ====
section
/-!
SUPPORT. One lemma for each field of each update of the state, so that no later proof unfolds a record
update.
-/

namespace Sys2Proof.Machine

/-! ### `State.setReg` -/

@[simp] theorem setReg_cfg (s : State) (k : Nat) (v : Word) : (s.setReg k v).cfg = s.cfg := rfl
@[simp] theorem setReg_regs (s : State) (k : Nat) (v : Word) : (s.setReg k v).regs = s.regs.set k v := rfl
@[simp] theorem setReg_geom (s : State) (k : Nat) (v : Word) : (s.setReg k v).geom = s.geom := rfl
@[simp] theorem setReg_saved (s : State) (k : Nat) (v : Word) : (s.setReg k v).saved = s.saved := rfl
@[simp] theorem setReg_readoutTime (s : State) (k : Nat) (v : Word) : (s.setReg k v).readoutTime = s.readoutTime := rfl
@[simp] theorem setReg_raw (s : State) (k : Nat) (v : Word) : (s.setReg k v).raw = s.raw := rfl
@[simp] theorem setReg_img (s : State) (k : Nat) (v : Word) : (s.setReg k v).img = s.img := rfl
@[simp] theorem setReg_imgMeta (s : State) (k : Nat) (v : Word) : (s.setReg k v).imgMeta = s.imgMeta := rfl
@[simp] theorem setReg_lut (s : State) (k : Nat) (v : Word) : (s.setReg k v).lut = s.lut := rfl
@[simp] theorem setReg_lutLoaded (s : State) (k : Nat) (v : Word) : (s.setReg k v).lutLoaded = s.lutLoaded := rfl
@[simp] theorem setReg_rx (s : State) (k : Nat) (v : Word) : (s.setReg k v).rx = s.rx := rfl
@[simp] theorem setReg_input (s : State) (k : Nat) (v : Word) : (s.setReg k v).input = s.input := rfl
@[simp] theorem setReg_sent (s : State) (k : Nat) (v : Word) : (s.setReg k v).sent = s.sent := rfl
@[simp] theorem setReg_answers (s : State) (k : Nat) (v : Word) : (s.setReg k v).answers = s.answers := rfl
@[simp] theorem setReg_epoch (s : State) (k : Nat) (v : Word) : (s.setReg k v).epoch = s.epoch := rfl

/-! ### `State.respond` -/

@[simp] theorem respond_cfg (s : State) (r : List Word) : (s.respond r).cfg = s.cfg := rfl
@[simp] theorem respond_regs (s : State) (r : List Word) : (s.respond r).regs = s.regs := rfl
@[simp] theorem respond_geom (s : State) (r : List Word) : (s.respond r).geom = s.geom := rfl
@[simp] theorem respond_saved (s : State) (r : List Word) : (s.respond r).saved = s.saved := rfl
@[simp] theorem respond_readoutTime (s : State) (r : List Word) : (s.respond r).readoutTime = s.readoutTime := rfl
@[simp] theorem respond_raw (s : State) (r : List Word) : (s.respond r).raw = s.raw := rfl
@[simp] theorem respond_img (s : State) (r : List Word) : (s.respond r).img = s.img := rfl
@[simp] theorem respond_imgMeta (s : State) (r : List Word) : (s.respond r).imgMeta = s.imgMeta := rfl
@[simp] theorem respond_lut (s : State) (r : List Word) : (s.respond r).lut = s.lut := rfl
@[simp] theorem respond_lutLoaded (s : State) (r : List Word) : (s.respond r).lutLoaded = s.lutLoaded := rfl
@[simp] theorem respond_rx (s : State) (r : List Word) : (s.respond r).rx = s.rx := rfl
@[simp] theorem respond_input (s : State) (r : List Word) : (s.respond r).input = s.input := rfl
@[simp] theorem respond_sent (s : State) (r : List Word) : (s.respond r).sent = s.sent ++ [r] := rfl
@[simp] theorem respond_answers (s : State) (r : List Word) : (s.respond r).answers = s.answers := rfl
@[simp] theorem respond_epoch (s : State) (r : List Word) : (s.respond r).epoch = s.epoch := rfl

/-! ### `State.complete` -/

@[simp] theorem complete_cfg (s : State) (d : Word) : (s.complete d).cfg = s.cfg := rfl
@[simp] theorem complete_regs (s : State) (d : Word) : (s.complete d).regs = s.regs := rfl
@[simp] theorem complete_geom (s : State) (d : Word) : (s.complete d).geom = s.geom := rfl
@[simp] theorem complete_saved (s : State) (d : Word) : (s.complete d).saved = s.saved := rfl
@[simp] theorem complete_readoutTime (s : State) (d : Word) : (s.complete d).readoutTime = s.readoutTime := rfl
@[simp] theorem complete_raw (s : State) (d : Word) : (s.complete d).raw = s.raw := rfl
@[simp] theorem complete_img (s : State) (d : Word) : (s.complete d).img = s.img := rfl
@[simp] theorem complete_imgMeta (s : State) (d : Word) : (s.complete d).imgMeta = s.imgMeta := rfl
@[simp] theorem complete_lut (s : State) (d : Word) : (s.complete d).lut = s.lut := rfl
@[simp] theorem complete_lutLoaded (s : State) (d : Word) : (s.complete d).lutLoaded = s.lutLoaded := rfl
@[simp] theorem complete_rx (s : State) (d : Word) : (s.complete d).rx = s.rx := rfl
@[simp] theorem complete_input (s : State) (d : Word) : (s.complete d).input = s.input := rfl
@[simp] theorem complete_sent (s : State) (d : Word) : (s.complete d).sent = s.sent ++ [okResponse s.cfg.modelId d] := rfl
@[simp] theorem complete_answers (s : State) (d : Word) : (s.complete d).answers = s.answers := rfl
@[simp] theorem complete_epoch (s : State) (d : Word) : (s.complete d).epoch = s.epoch := rfl

/-! ### `State.raise` -/

@[simp] theorem raise_cfg (s : State) (f : Failure) : (s.raise f).cfg = s.cfg := rfl
@[simp] theorem raise_regs (s : State) (f : Failure) : (s.raise f).regs = s.regs := rfl
@[simp] theorem raise_geom (s : State) (f : Failure) : (s.raise f).geom = s.geom := rfl
@[simp] theorem raise_saved (s : State) (f : Failure) : (s.raise f).saved = s.saved := rfl
@[simp] theorem raise_readoutTime (s : State) (f : Failure) : (s.raise f).readoutTime = s.readoutTime := rfl
@[simp] theorem raise_raw (s : State) (f : Failure) : (s.raise f).raw = s.raw := rfl
@[simp] theorem raise_img (s : State) (f : Failure) : (s.raise f).img = s.img := rfl
@[simp] theorem raise_imgMeta (s : State) (f : Failure) : (s.raise f).imgMeta = s.imgMeta := rfl
@[simp] theorem raise_lut (s : State) (f : Failure) : (s.raise f).lut = s.lut := rfl
@[simp] theorem raise_lutLoaded (s : State) (f : Failure) : (s.raise f).lutLoaded = s.lutLoaded := rfl
@[simp] theorem raise_rx (s : State) (f : Failure) : (s.raise f).rx = s.rx := rfl
@[simp] theorem raise_input (s : State) (f : Failure) : (s.raise f).input = s.input := rfl
@[simp] theorem raise_sent (s : State) (f : Failure) : (s.raise f).sent = s.sent ++ [errorResponse s.cfg.modelId f] := rfl
@[simp] theorem raise_answers (s : State) (f : Failure) : (s.raise f).answers = s.answers := rfl
@[simp] theorem raise_epoch (s : State) (f : Failure) : (s.raise f).epoch = s.epoch := rfl

/-! ### `State.consume` -/

@[simp] theorem consume_cfg (s : State) (n : Nat) : (s.consume n).cfg = s.cfg := rfl
@[simp] theorem consume_regs (s : State) (n : Nat) : (s.consume n).regs = s.regs := rfl
@[simp] theorem consume_geom (s : State) (n : Nat) : (s.consume n).geom = s.geom := rfl
@[simp] theorem consume_saved (s : State) (n : Nat) : (s.consume n).saved = s.saved := rfl
@[simp] theorem consume_readoutTime (s : State) (n : Nat) : (s.consume n).readoutTime = s.readoutTime := rfl
@[simp] theorem consume_raw (s : State) (n : Nat) : (s.consume n).raw = s.raw := rfl
@[simp] theorem consume_img (s : State) (n : Nat) : (s.consume n).img = s.img := rfl
@[simp] theorem consume_imgMeta (s : State) (n : Nat) : (s.consume n).imgMeta = s.imgMeta := rfl
@[simp] theorem consume_lut (s : State) (n : Nat) : (s.consume n).lut = s.lut := rfl
@[simp] theorem consume_lutLoaded (s : State) (n : Nat) : (s.consume n).lutLoaded = s.lutLoaded := rfl
@[simp] theorem consume_rx (s : State) (n : Nat) : (s.consume n).rx = s.rx.drop n := rfl
@[simp] theorem consume_input (s : State) (n : Nat) : (s.consume n).input = s.input.drop (n - s.rx.length) := rfl
@[simp] theorem consume_sent (s : State) (n : Nat) : (s.consume n).sent = s.sent := rfl
@[simp] theorem consume_answers (s : State) (n : Nat) : (s.consume n).answers = s.answers := rfl
@[simp] theorem consume_epoch (s : State) (n : Nat) : (s.consume n).epoch = s.epoch := rfl

/-! ### `State.receive` -/

@[simp] theorem receive_cfg (s : State) : s.receive.cfg = s.cfg := rfl
@[simp] theorem receive_regs (s : State) : s.receive.regs = s.regs := rfl
@[simp] theorem receive_geom (s : State) : s.receive.geom = s.geom := rfl
@[simp] theorem receive_saved (s : State) : s.receive.saved = s.saved := rfl
@[simp] theorem receive_readoutTime (s : State) : s.receive.readoutTime = s.readoutTime := rfl
@[simp] theorem receive_raw (s : State) : s.receive.raw = s.raw := rfl
@[simp] theorem receive_img (s : State) : s.receive.img = s.img := rfl
@[simp] theorem receive_imgMeta (s : State) : s.receive.imgMeta = s.imgMeta := rfl
@[simp] theorem receive_lut (s : State) : s.receive.lut = s.lut := rfl
@[simp] theorem receive_lutLoaded (s : State) : s.receive.lutLoaded = s.lutLoaded := rfl
@[simp] theorem receive_rx (s : State) : s.receive.rx = s.pendingWords := rfl
@[simp] theorem receive_input (s : State) : s.receive.input = s.input.drop (leadingWords s.input).length := rfl
@[simp] theorem receive_sent (s : State) : s.receive.sent = s.sent := rfl
@[simp] theorem receive_answers (s : State) : s.receive.answers = s.answers := rfl
@[simp] theorem receive_epoch (s : State) : s.receive.epoch = s.epoch := rfl

/-! ### `State.applyReset` -/

@[simp] theorem applyReset_cfg (s : State) : s.applyReset.cfg = s.cfg := rfl
@[simp] theorem applyReset_regs (s : State) : s.applyReset.regs = resetRegs s.cfg := rfl
@[simp] theorem applyReset_geom (s : State) : s.applyReset.geom = resetGeometry s.cfg := rfl
@[simp] theorem applyReset_saved (s : State) : s.applyReset.saved = resetGeometry s.cfg := rfl
@[simp] theorem applyReset_readoutTime (s : State) : s.applyReset.readoutTime = s.cfg.resetReadoutTime := rfl
@[simp] theorem applyReset_raw (s : State) : s.applyReset.raw = [] := rfl
@[simp] theorem applyReset_img (s : State) : s.applyReset.img = [] := rfl
@[simp] theorem applyReset_imgMeta (s : State) : s.applyReset.imgMeta = ⟨0, 0⟩ := rfl
@[simp] theorem applyReset_lut (s : State) : s.applyReset.lut = [] := rfl
@[simp] theorem applyReset_lutLoaded (s : State) : s.applyReset.lutLoaded = false := rfl
@[simp] theorem applyReset_rx (s : State) : s.applyReset.rx = [] := rfl
@[simp] theorem applyReset_input (s : State) : s.applyReset.input = s.input := rfl
@[simp] theorem applyReset_sent (s : State) : s.applyReset.sent = s.sent := rfl
@[simp] theorem applyReset_answers (s : State) : s.applyReset.answers = s.answers := rfl
@[simp] theorem applyReset_epoch (s : State) : s.applyReset.epoch = s.epoch + 1 := rfl

/-! ### `State.withFetchWord` -/

@[simp] theorem withFetchWord_cfg (s : State) (nbits w : Nat) : (s.withFetchWord nbits w).cfg = s.cfg := rfl
@[simp] theorem withFetchWord_regs (s : State) (nbits w : Nat) : (s.withFetchWord nbits w).regs = s.regs := rfl
@[simp] theorem withFetchWord_geom (s : State) (nbits w : Nat) : (s.withFetchWord nbits w).geom = s.geom := rfl
@[simp] theorem withFetchWord_saved (s : State) (nbits w : Nat) : (s.withFetchWord nbits w).saved = s.saved := rfl
@[simp] theorem withFetchWord_readoutTime (s : State) (nbits w : Nat) : (s.withFetchWord nbits w).readoutTime = s.readoutTime := rfl
@[simp] theorem withFetchWord_raw (s : State) (nbits w : Nat) : (s.withFetchWord nbits w).raw = s.raw := rfl
@[simp] theorem withFetchWord_img (s : State) (nbits w : Nat) : (s.withFetchWord nbits w).img = s.img := rfl
@[simp] theorem withFetchWord_imgMeta (s : State) (nbits w : Nat) : (s.withFetchWord nbits w).imgMeta = s.imgMeta := rfl
@[simp] theorem withFetchWord_lut (s : State) (nbits w : Nat) : (s.withFetchWord nbits w).lut = s.lut := rfl
@[simp] theorem withFetchWord_lutLoaded (s : State) (nbits w : Nat) : (s.withFetchWord nbits w).lutLoaded = s.lutLoaded := rfl
@[simp] theorem withFetchWord_rx (s : State) (nbits w : Nat) : (s.withFetchWord nbits w).rx = [] := rfl
@[simp] theorem withFetchWord_input (s : State) (nbits w : Nat) : (s.withFetchWord nbits w).input = (tableFrame nbits w).map HostEvent.word ++ s.input := rfl
@[simp] theorem withFetchWord_sent (s : State) (nbits w : Nat) : (s.withFetchWord nbits w).sent = s.sent := rfl
@[simp] theorem withFetchWord_answers (s : State) (nbits w : Nat) : (s.withFetchWord nbits w).answers = s.answers := rfl
@[simp] theorem withFetchWord_epoch (s : State) (nbits w : Nat) : (s.withFetchWord nbits w).epoch = s.epoch := rfl

/-! ### `storeImage` -/

@[simp] theorem storeImage_cfg (s : State) (lin : Bool) (ms : List Move) (r c : Int) : (storeImage s lin ms r c).cfg = s.cfg := rfl
@[simp] theorem storeImage_regs (s : State) (lin : Bool) (ms : List Move) (r c : Int) : (storeImage s lin ms r c).regs = s.regs := rfl
@[simp] theorem storeImage_geom (s : State) (lin : Bool) (ms : List Move) (r c : Int) : (storeImage s lin ms r c).geom = s.geom := rfl
@[simp] theorem storeImage_saved (s : State) (lin : Bool) (ms : List Move) (r c : Int) : (storeImage s lin ms r c).saved = s.saved := rfl
@[simp] theorem storeImage_readoutTime (s : State) (lin : Bool) (ms : List Move) (r c : Int) : (storeImage s lin ms r c).readoutTime = s.readoutTime := rfl
@[simp] theorem storeImage_raw (s : State) (lin : Bool) (ms : List Move) (r c : Int) : (storeImage s lin ms r c).raw = s.raw := rfl
@[simp] theorem storeImage_img (s : State) (lin : Bool) (ms : List Move) (r c : Int) : (storeImage s lin ms r c).img = applyMoves s lin ms := rfl
@[simp] theorem storeImage_imgMeta (s : State) (lin : Bool) (ms : List Move) (r c : Int) : (storeImage s lin ms r c).imgMeta = ⟨BitVec.ofInt 64 r, BitVec.ofInt 64 c⟩ := rfl
@[simp] theorem storeImage_lut (s : State) (lin : Bool) (ms : List Move) (r c : Int) : (storeImage s lin ms r c).lut = s.lut := rfl
@[simp] theorem storeImage_lutLoaded (s : State) (lin : Bool) (ms : List Move) (r c : Int) : (storeImage s lin ms r c).lutLoaded = s.lutLoaded := rfl
@[simp] theorem storeImage_rx (s : State) (lin : Bool) (ms : List Move) (r c : Int) : (storeImage s lin ms r c).rx = s.rx := rfl
@[simp] theorem storeImage_input (s : State) (lin : Bool) (ms : List Move) (r c : Int) : (storeImage s lin ms r c).input = s.input := rfl
@[simp] theorem storeImage_sent (s : State) (lin : Bool) (ms : List Move) (r c : Int) : (storeImage s lin ms r c).sent = s.sent := rfl
@[simp] theorem storeImage_answers (s : State) (lin : Bool) (ms : List Move) (r c : Int) : (storeImage s lin ms r c).answers = s.answers := rfl
@[simp] theorem storeImage_epoch (s : State) (lin : Bool) (ms : List Move) (r c : Int) : (storeImage s lin ms r c).epoch = s.epoch := rfl

/-! ### `commitPlan` -/

@[simp] theorem commitPlan_cfg (s : State) (p : SequencePlan) :
    (commitPlan s p).cfg = s.cfg := rfl
@[simp] theorem commitPlan_regs (s : State) (p : SequencePlan) :
    (commitPlan s p).regs = controlRegs (s.reg 0) p.new (gapRegs p.gap ((branchRegs p.branch
      (s.regs.set 1 (BitVec.ofInt 32 p.frames))).set 2 (BitVec.ofInt 32 p.exposure))) := rfl
@[simp] theorem commitPlan_geom (s : State) (p : SequencePlan) :
    (commitPlan s p).geom = branchGeometry p.branch (if p.restore = true then s.saved else s.geom) := rfl
@[simp] theorem commitPlan_saved (s : State) (p : SequencePlan) :
    (commitPlan s p).saved = if p.save = true then s.geom else s.saved := rfl
@[simp] theorem commitPlan_readoutTime (s : State) (p : SequencePlan) :
    (commitPlan s p).readoutTime = s.readoutTime := rfl
@[simp] theorem commitPlan_raw (s : State) (p : SequencePlan) :
    (commitPlan s p).raw = s.raw := rfl
@[simp] theorem commitPlan_img (s : State) (p : SequencePlan) :
    (commitPlan s p).img = s.img := rfl
@[simp] theorem commitPlan_imgMeta (s : State) (p : SequencePlan) :
    (commitPlan s p).imgMeta = s.imgMeta := rfl
@[simp] theorem commitPlan_lut (s : State) (p : SequencePlan) :
    (commitPlan s p).lut = s.lut := rfl
@[simp] theorem commitPlan_lutLoaded (s : State) (p : SequencePlan) :
    (commitPlan s p).lutLoaded = s.lutLoaded := rfl
@[simp] theorem commitPlan_rx (s : State) (p : SequencePlan) :
    (commitPlan s p).rx = s.rx := rfl
@[simp] theorem commitPlan_input (s : State) (p : SequencePlan) :
    (commitPlan s p).input = s.input := rfl
@[simp] theorem commitPlan_sent (s : State) (p : SequencePlan) :
    (commitPlan s p).sent = s.sent := rfl
@[simp] theorem commitPlan_answers (s : State) (p : SequencePlan) :
    (commitPlan s p).answers = s.answers := rfl
@[simp] theorem commitPlan_epoch (s : State) (p : SequencePlan) :
    (commitPlan s p).epoch = s.epoch := rfl

end Sys2Proof.Machine
end

