-- ==== Sys2Proof/Laws/Memory.lean ====
section
/-!
SUPPORT. What the memory operations do: read after write, every other byte unchanged, the canonical form
and the capacity kept.
-/

namespace Sys2Proof.Machine

@[simp] theorem readByte_nil (a : Nat) : Memory.readByte [] a = none := rfl

theorem readByte_writeByte_same (m : Memory) (a : Nat) (b : Byte) :
    (m.writeByte a b).readByte a = some b := by
  induction m with
  | nil => simp [Memory.writeByte, Memory.readByte]
  | cons c m ih =>
    unfold Memory.writeByte
    split
    · simp [Memory.readByte]
    · split
      · simp [Memory.readByte]
      · next h1 h2 => simp [Memory.readByte, ih, Ne.symm h2]

theorem readByte_writeByte_other (m : Memory) (a x : Nat) (b : Byte) (h : x ≠ a) :
    (m.writeByte a b).readByte x = m.readByte x := by
  induction m with
  | nil => simp [Memory.writeByte, Memory.readByte, Ne.symm h, Memory.unlisted]
  | cons c m ih =>
    unfold Memory.writeByte
    split
    · simp [Memory.readByte, Ne.symm h]
    · split
      · next h1 h2 => subst h2; simp [Memory.readByte, Ne.symm h]
      · simp [Memory.readByte, ih]

/-- Reading a byte after a byte write. -/
theorem readByte_writeByte (m : Memory) (a x : Nat) (b : Byte) :
    (m.writeByte a b).readByte x = if x = a then some b else m.readByte x := by
  split
  · next h => rw [h, readByte_writeByte_same]
  · next h => exact readByte_writeByte_other m a x b h

/-- Every address of a written memory is the written one or an old one. -/
theorem mem_writeByte (m : Memory) (a : Nat) (b : Byte) (c : Host.Cell)
    (h : c ∈ m.writeByte a b) : c.1 = a ∨ c ∈ m := by
  induction m with
  | nil => simp_all [Memory.writeByte]
  | cons d m ih =>
    unfold Memory.writeByte at h
    split at h
    · simp only [List.mem_cons] at h ⊢; rcases h with rfl | h <;> simp_all
    · split at h
      · simp only [List.mem_cons] at h ⊢; rcases h with rfl | h <;> simp_all
      · simp only [List.mem_cons] at h ⊢
        rcases h with rfl | h
        · simp
        · rcases ih h with h | h <;> simp [h]

theorem writeByte_wf (m : Memory) (a : Nat) (b : Byte) (h : m.wf) : (m.writeByte a b).wf := by
  induction m with
  | nil => simp [Memory.writeByte, Memory.wf]
  | cons c m ih =>
    obtain ⟨hc, hm⟩ := List.pairwise_cons.mp h
    unfold Memory.writeByte
    split
    · next h1 =>
      refine List.pairwise_cons.mpr ⟨?_, h⟩
      intro d hd
      rcases List.mem_cons.mp hd with rfl | hd
      · exact h1
      · exact Nat.lt_trans h1 (hc d hd)
    · split
      · next h2 => subst h2; exact List.pairwise_cons.mpr ⟨hc, hm⟩
      · next h1 h2 =>
        refine List.pairwise_cons.mpr ⟨?_, ih hm⟩
        intro d hd
        rcases mem_writeByte m a b d hd with h3 | h3
        · omega
        · exact hc d h3

theorem writeByte_within (m : Memory) (a : Nat) (b : Byte) (len : Nat) (h : m.within len)
    (ha : a < 2 * len) : (m.writeByte a b).within len := by
  intro c hc
  rcases mem_writeByte m a b c hc with h1 | h1
  · omega
  · exact h c h1

/-- A canonical memory is known by what its bytes read as. -/
theorem memory_ext (m n : Memory) (hm : m.wf) (hn : n.wf)
    (h : ∀ a, m.readByte a = n.readByte a) : m = n := by
  induction m generalizing n with
  | nil =>
    cases n with
    | nil => rfl
    | cons d n => simpa [Memory.readByte, Memory.unlisted] using h d.1
  | cons c m ih =>
    obtain ⟨hc, hm'⟩ := List.pairwise_cons.mp hm
    cases n with
    | nil => simpa [Memory.readByte, Memory.unlisted] using h c.1
    | cons d n =>
      obtain ⟨hd, hn'⟩ := List.pairwise_cons.mp hn
      have low : ∀ (l : Memory) (x : Nat), (∀ e ∈ l, x < e.1) → l.readByte x = none := by
        intro l x hl
        induction l with
        | nil => rfl
        | cons e l ihl =>
          have := hl e (by simp)
          rw [Memory.readByte, if_neg (by omega)]
          exact ihl (fun f hf => hl f (by simp [hf]))
      have key : c.1 = d.1 := by
        rcases Nat.lt_trichotomy c.1 d.1 with h1 | h1 | h1
        · have h2 := h c.1
          rw [low (d :: n) c.1 (by
            intro e he
            rcases List.mem_cons.mp he with rfl | he
            · exact h1
            · exact Nat.lt_trans h1 (hd e he))] at h2
          simp [Memory.readByte] at h2
        · exact h1
        · have h2 := h d.1
          rw [low (c :: m) d.1 (by
            intro e he
            rcases List.mem_cons.mp he with rfl | he
            · exact h1
            · exact Nat.lt_trans h1 (hc e he))] at h2
          simp [Memory.readByte] at h2
      have hval : c.2 = d.2 := by
        have h2 := h c.1
        simpa [Memory.readByte, key] using h2
      have hcd : c = d := Prod.ext key hval
      subst hcd
      congr 1
      refine ih n hm' hn' (fun a => ?_)
      have h2 := h a
      by_cases ha : c.1 = a
      · subst ha; rw [low m _ hc, low n _ hd]
      · simpa [Memory.readByte, ha] using h2

/-! ### Samples -/

theorem writeSample_wf (m : Memory) (a : Nat) (v : Sample) (h : m.wf) : (m.writeSample a v).wf :=
  writeByte_wf _ _ _ (writeByte_wf _ _ _ h)

theorem writeSample_within (m : Memory) (a : Nat) (v : Sample) (len : Nat) (h : m.within len)
    (ha : a < len) : (m.writeSample a v).within len :=
  writeByte_within _ _ _ _ (writeByte_within _ _ _ _ h (by omega)) (by omega)

/-- Reading a byte after a sample write. -/
theorem readByte_writeSample (m : Memory) (a x : Nat) (v : Sample) :
    (m.writeSample a v).readByte x =
      if x = 2 * a then some (lowByte v) else if x = 2 * a + 1 then some (highByte v)
      else m.readByte x := by
  unfold Memory.writeSample
  rw [readByte_writeByte, readByte_writeByte]
  by_cases h1 : x = 2 * a + 1
  · rw [if_pos h1, if_neg (by omega), if_pos h1]
  · by_cases h2 : x = 2 * a
    · rw [if_neg h1, if_pos h2, if_pos h2]
    · rw [if_neg h1, if_neg h2, if_neg h2, if_neg h1]

@[simp] theorem highByte_append_lowByte (v : Sample) : highByte v ++ lowByte v = v := by
  apply BitVec.eq_of_getLsbD_eq
  intro i hi
  simp only [highByte, lowByte, BitVec.getLsbD_append, BitVec.getLsbD_extractLsb']
  split
  · simp_all
  · simp_all; omega

/-- A sample written is the sample read. -/
@[simp] theorem readSample_writeSample_same (m : Memory) (sp : MemSpace) (e a : Nat) (v : Sample) :
    (m.writeSample a v).readSample sp e a = v := by
  have h1 : (m.writeSample a v).readByte (2 * a + 1) = some (highByte v) := by
    rw [readByte_writeSample, if_neg (by omega), if_pos rfl]
  have h2 : (m.writeSample a v).readByte (2 * a) = some (lowByte v) := by
    rw [readByte_writeSample, if_pos rfl]
  simp only [Memory.readSample, Memory.byteOrFree, h1, h2, Option.getD_some, highByte_append_lowByte]

/-- Every other sample reads as before. -/
theorem readSample_writeSample_other (m : Memory) (sp : MemSpace) (e a x : Nat) (v : Sample)
    (h : x ≠ a) : (m.writeSample a v).readSample sp e x = m.readSample sp e x := by
  have h1 : (m.writeSample a v).readByte (2 * x + 1) = m.readByte (2 * x + 1) := by
    rw [readByte_writeSample, if_neg (by omega), if_neg (by omega)]
  have h2 : (m.writeSample a v).readByte (2 * x) = m.readByte (2 * x) := by
    rw [readByte_writeSample, if_neg (by omega), if_neg (by omega)]
  simp only [Memory.readSample, Memory.byteOrFree, h1, h2]

/-- A sample is a function of its two bytes. -/
theorem readSample_congr (m n : Memory) (sp : MemSpace) (e a : Nat)
    (h0 : m.readByte (2 * a) = n.readByte (2 * a))
    (h1 : m.readByte (2 * a + 1) = n.readByte (2 * a + 1)) :
    m.readSample sp e a = n.readSample sp e a := by
  simp only [Memory.readSample, Memory.byteOrFree, h0, h1]

/-! ### A whole table -/

theorem mem_cellsOfTable (t : List Sample) (a : Nat) (c : Host.Cell) (h : c ∈ cellsOfTable a t) :
    2 * a ≤ c.1 ∧ c.1 < 2 * (a + t.length) := by
  induction t generalizing a with
  | nil => simp [cellsOfTable] at h
  | cons v t ih =>
    simp only [cellsOfTable, List.mem_cons] at h
    rcases h with rfl | rfl | h
    · simp only [List.length_cons]; omega
    · simp only [List.length_cons]; omega
    · have := ih (a + 1) h; simp only [List.length_cons]; omega

theorem cellsOfTable_wf (t : List Sample) (a : Nat) : Memory.wf (cellsOfTable a t) := by
  induction t generalizing a with
  | nil => simp [cellsOfTable, Memory.wf]
  | cons v t ih =>
    have hrest := fun c hc => (mem_cellsOfTable t (a + 1) c hc).1
    refine List.pairwise_cons.mpr ⟨?_, List.pairwise_cons.mpr ⟨?_, ih (a + 1)⟩⟩
    · intro c hc
      rcases List.mem_cons.mp hc with rfl | hc
      · exact Nat.lt_succ_self _
      · have := hrest c hc; show 2 * a < c.1; omega
    · intro c hc; have := hrest c hc; show 2 * a + 1 < c.1; omega

theorem cellsOfTable_within (t : List Sample) : Memory.within (cellsOfTable 0 t) t.length := by
  intro c hc; have := mem_cellsOfTable t 0 c hc; omega

/-- Entry `n` of a loaded table reads as the table says. -/
theorem readSample_cellsOfTable (t : List Sample) (a n : Nat) (sp : MemSpace) (e : Nat)
    (hn : n < t.length) : Memory.readSample (cellsOfTable a t) sp e (a + n) = t.getD n 0 := by
  induction t generalizing a n with
  | nil => simp at hn
  | cons v t ih =>
    cases n with
    | zero =>
      simp only [cellsOfTable, Memory.readSample, Memory.byteOrFree, Memory.readByte]
      rw [if_neg (by omega), if_pos (by omega), if_pos (by omega)]
      exact highByte_append_lowByte v
    | succ n =>
      rw [← readSample_congr (cellsOfTable (a + 1) t), show a + (n + 1) = a + 1 + n by omega,
        ih (a + 1) n (by simpa using hn)]
      · rfl
      · simp only [cellsOfTable, Memory.readByte]
        rw [if_neg (by omega), if_neg (by omega)]
      · simp only [cellsOfTable, Memory.readByte]
        rw [if_neg (by omega), if_neg (by omega)]

/-! ### Lists of moves -/

/-- One move more is one sample written more. -/
theorem applyMoves_append_one (s : State) (lin : Bool) (ms : List Move) (m : Move) :
    applyMoves s lin (ms ++ [m]) = (applyMoves s lin ms).writeSample m.dst (movedSample s lin m) := by
  simp [applyMoves]

theorem applyMoves_wf (s : State) (lin : Bool) (ms : List Move) (h : s.img.wf) :
    (applyMoves s lin ms).wf := by
  induction ms using List.reverseRecOn with
  | nil => exact h
  | append_singleton ms m ih => rw [applyMoves_append_one]; exact writeSample_wf _ _ _ ih

theorem applyMoves_within (s : State) (lin : Bool) (ms : List Move) (len : Nat)
    (h : s.img.within len) (hm : ∀ m ∈ ms, m.dst < len) : (applyMoves s lin ms).within len := by
  induction ms using List.reverseRecOn with
  | nil => exact h
  | append_singleton ms m ih =>
    rw [applyMoves_append_one]
    exact writeSample_within _ _ _ _ (ih fun x hx => hm x (by simp [hx])) (hm m (by simp))

/-- A byte that belongs to no destination reads as before. -/
theorem applyMoves_readByte_other (s : State) (lin : Bool) (ms : List Move) (x : Nat)
    (h : ∀ m ∈ ms, x ≠ 2 * m.dst ∧ x ≠ 2 * m.dst + 1) :
    (applyMoves s lin ms).readByte x = s.img.readByte x := by
  induction ms using List.reverseRecOn with
  | nil => rfl
  | append_singleton ms m ih =>
    have hm := h m (by simp)
    rw [applyMoves_append_one, readByte_writeSample, if_neg hm.1, if_neg hm.2]
    exact ih fun y hy => h y (by simp [hy])

/-- Where the destinations are distinct, each holds the sample its move stored. -/
theorem applyMoves_sample (s : State) (lin : Bool) (ms : List Move) (sp : MemSpace) (e : Nat)
    (hn : (ms.map Move.dst).Nodup) (m : Move) (hm : m ∈ ms) :
    (applyMoves s lin ms).readSample sp e m.dst = movedSample s lin m := by
  induction ms using List.reverseRecOn with
  | nil => simp at hm
  | append_singleton ms k ih =>
    rw [applyMoves_append_one]
    rw [List.map_append, List.nodup_append] at hn
    obtain ⟨hn1, -, hn2⟩ := hn
    rcases List.mem_append.mp hm with h | h
    · rw [readSample_writeSample_other]
      · exact ih hn1 h
      · exact hn2 m.dst (List.mem_map_of_mem h) k.dst (by simp)
    · rw [List.mem_singleton.mp h]; simp

end Sys2Proof.Machine
end

