-- ==== Sys2Proof/Laws/Ops.lean ====
section
/-!
SUPPORT. For each shared operation, once, everything it can do.
-/

namespace Sys2Proof.Machine

/-! ### The error monad -/

/-- A sequence of checks succeeds exactly when each does. -/
theorem bind_eq_ok {α β : Type} (x : Except Failure α) (f : α → Except Failure β) (b : β) :
    (x >>= f) = .ok b ↔ ∃ a, x = .ok a ∧ f a = .ok b := by
  cases x <;> simp [bind, Except.bind]

/-- The first failed check is the one reported (`60_exceptions.md` R234). -/
theorem bind_eq_error {α β : Type} (x : Except Failure α) (f : α → Except Failure β) (e : Failure) :
    (x >>= f) = .error e ↔ x = .error e ∨ ∃ a, x = .ok a ∧ f a = .error e := by
  cases x <;> simp [bind, Except.bind]

@[simp] theorem pure_eq_ok {α : Type} (a : α) : (pure a : Except Failure α) = .ok a := rfl

/-! ### The end of a command -/

/-- A command that checks and commits always answers a next state. -/
theorem finish_cases (s t : State) (r : Except Failure State) (h : finish s r = .next t) :
    (∃ u, r = .ok u ∧ t = u.complete 0) ∨ (∃ f, r = .error f ∧ t = s.raise f) := by
  cases r with
  | ok u => exact .inl ⟨u, rfl, by simpa [finish] using h.symm⟩
  | error f => exact .inr ⟨f, rfl, by simpa [finish] using h.symm⟩

theorem finishRead_cases (s t : State) (r : Except Failure Word) (h : finishRead s r = .next t) :
    (∃ d, r = .ok d ∧ t = s.complete d) ∨ (∃ f, r = .error f ∧ t = s.raise f) := by
  cases r with
  | ok d => exact .inl ⟨d, rfl, by simpa [finishRead] using h.symm⟩
  | error f => exact .inr ⟨f, rfl, by simpa [finishRead] using h.symm⟩

theorem finish_ok (s u : State) : finish s (.ok u) = .next (u.complete 0) := rfl
theorem finish_error (s : State) (f : Failure) : finish s (.error f) = .next (s.raise f) := rfl
theorem finishRead_ok (s : State) (d : Word) : finishRead s (.ok d) = .next (s.complete d) := rfl
theorem finishRead_error (s : State) (f : Failure) : finishRead s (.error f) = .next (s.raise f) := rfl

/-! ### Registers -/

theorem reg_setReg_same (s : State) (k : Nat) (v : Word) (h : k < s.regs.length) :
    (s.setReg k v).reg k = v := by
  simp [State.reg, State.setReg, h]

theorem reg_setReg_other (s : State) (k j : Nat) (v : Word) (h : j ≠ k) :
    (s.setReg k v).reg j = s.reg j := by
  simp [State.reg, State.setReg, List.getD_eq_getElem?_getD, Ne.symm h]

@[simp] theorem reg_complete (s : State) (d : Word) (k : Nat) : (s.complete d).reg k = s.reg k := rfl
@[simp] theorem reg_raise (s : State) (f : Failure) (k : Nat) : (s.raise f).reg k = s.reg k := rfl
@[simp] theorem reg_consume (s : State) (n k : Nat) : (s.consume n).reg k = s.reg k := rfl

/-! ### Operands -/

theorem decodeAddress_ok (c : Config) (a : Word) (k : Nat) :
    decodeAddress c a = .ok k ↔
      c.dhBase ≤ a.toNat ∧ a.toNat < c.dhBase + c.nregs ∧ k = a.toNat - c.dhBase := by
  unfold decodeAddress
  split
  · next h => simp only [Except.ok.injEq]; exact ⟨fun e => ⟨h.1, h.2, e.symm⟩, fun e => e.2.2.symm⟩
  · next h => simp only [reduceCtorEq, false_iff]; exact fun e => h ⟨e.1, e.2.1⟩

theorem decodeId_ok (c : Config) (a : Word) (f : BitField) :
    decodeId c a = .ok f ↔
      c.dhPseudoBase ≤ a.toNat ∧ a.toNat ≤ c.dhPseudoBase + 9 ∧
        layoutField c (a.toNat - c.dhPseudoBase) = some f := by
  unfold decodeId
  split
  · next h =>
    cases hf : layoutField c (a.toNat - c.dhPseudoBase) with
    | none => simp
    | some g => simp [h.1, h.2]
  · next h => simp only [reduceCtorEq, false_iff]; exact fun e => h ⟨e.1, e.2.1⟩

/-- An unknown id is reported in one way only. -/
theorem decodeId_error (c : Config) (a : Word) (e : Failure) (h : decodeId c a = .error e) :
    e = ⟨.pseudoUnknownId, a.toNat, 0, 0, 0⟩ := by
  unfold decodeId at h
  split at h
  · split at h
    · cases h
    · exact (Except.error.inj h).symm
  · exact (Except.error.inj h).symm

/-! ### The checks of `WRREG` -/

theorem checkWrite_ok (d : RegDesc) (a v : Word) :
    checkWrite d a v = .ok () ↔
      d.readOnly = false ∧ d.minimum ≤ v.toNat ∧ v.toNat ≤ d.maximum ∧
        (d.powerOfTwo = true → isPow2 v = true) := by
  unfold checkWrite
  split
  · next h => simp [h]
  · next h =>
    split
    · next h2 =>
      simp only [reduceCtorEq, false_iff]
      rintro ⟨-, h3, h4, -⟩
      omega
    · next h2 =>
      split
      · next h3 => simp [h3.1, h3.2]
      · next h3 =>
        simp only [true_iff]
        refine ⟨by simpa using h, by omega, by omega, fun hp => ?_⟩
        by_contra hq
        exact h3 ⟨hp, by simpa using hq⟩

end Sys2Proof.Machine
end

