-- ==== Sys2Proof/Laws/Descramble.lean ====
section
/-!
SUPPORT. What the checks and the body of `DESCR` can do.
-/

namespace Sys2Proof.Machine

theorem selectVariant_fullFrame (m : DetectorModel) (mode : Word) (lin : Bool) :
    selectVariant m mode lin = .ok .fullFrame4 ↔ m = .pccd4824 ∧ mode ≠ streakCamera := by
  cases m <;> cases lin <;> by_cases h : mode = streakCamera <;> simp [selectVariant, h]

theorem selectVariant_streak (m : DetectorModel) (mode : Word) (lin : Bool) :
    selectVariant m mode lin = .ok .streak ↔
      m ≠ .pccd16080 ∧ mode = streakCamera ∧ lin = false := by
  cases m <;> cases lin <;> by_cases h : mode = streakCamera <;> simp [selectVariant, h]

theorem selectVariant_error (m : DetectorModel) (mode : Word) (lin : Bool) (e : Failure)
    (h : selectVariant m mode lin = .error e) : e = notImplemented m mode lin := by
  revert h
  cases m <;> cases lin <;> by_cases h : mode = streakCamera <;> simp [selectVariant, h, eq_comm]

theorem checkLut_ok (s : State) (lin : Bool) :
    checkLut s lin = .ok () ↔ (lin = true → s.lutLoaded = true) := by
  unfold checkLut
  cases lin <;> cases s.lutLoaded <;> simp

theorem checkFullFrame_ok (c : Config) (h v : Int) :
    checkFullFrame c h v = .ok () ↔
      0 < h ∧ 0 < v ∧ h % c.hdf = 0 ∧ v % c.vdf = 0 ∧ h * v ≤ c.rawLen ∧ h * v ≤ c.imgLen := by
  unfold checkFullFrame
  split
  · simp only [reduceCtorEq, false_iff]; rintro ⟨h1, h2, h3, h4, -⟩; omega
  · split
    · simp only [reduceCtorEq, false_iff]; rintro ⟨-, -, -, -, h5, h6⟩; omega
    · simp only [true_iff]; omega

theorem checkStreak_ok (c : Config) (w v : Int) :
    checkStreak c w v = .ok () ↔
      0 < w ∧ 0 < v ∧ w % 4 = 0 ∧ floorDiv v 2 * 4 * w ≤ c.rawLen ∧ floorDiv v 2 * w ≤ c.imgLen := by
  unfold checkStreak
  split
  · simp only [reduceCtorEq, false_iff]; rintro ⟨h1, h2, h3, -⟩; omega
  · split
    · simp only [reduceCtorEq, false_iff]; rintro ⟨-, -, -, h4, h5⟩; omega
    · simp only [true_iff]; omega

/-- When `DESCR` makes an image, and which (`43_descramble.md` R190). -/
theorem descramble_ok (s t : State) (lin : Bool) :
    descramble s lin = .ok t ↔
      checkLut s lin = .ok () ∧
        ((s.cfg.modelId = .pccd4824 ∧ s.mode ≠ streakCamera ∧
            checkFullFrame s.cfg s.geom.framesizeH.toInt s.geom.framesizeV.toInt = .ok () ∧
            t = storeImage s lin
              (fullFrameMoves s.hdf s.geom.framesizeH.toInt.toNat s.geom.framesizeV.toInt.toNat)
              s.geom.framesizeV.toInt s.geom.framesizeH.toInt) ∨
          (s.cfg.modelId ≠ .pccd16080 ∧ s.mode = streakCamera ∧ lin = false ∧
            checkStreak s.cfg s.geom.framesizeH.toInt s.geom.framesizeV.toInt = .ok () ∧
            t = storeImage s lin
              (streakMoves s.geom.framesizeH.toInt.toNat s.geom.framesizeV.toInt.toNat)
              (floorDiv s.geom.framesizeV.toInt 2) s.geom.framesizeH.toInt)) := by
  unfold descramble
  rw [bind_eq_ok]
  constructor
  · rintro ⟨v, hv, h⟩
    obtain ⟨_, hl, h⟩ := (bind_eq_ok _ _ _).mp h
    refine ⟨hl, ?_⟩
    cases v with
    | fullFrame4 =>
      obtain ⟨h1, h2⟩ := (selectVariant_fullFrame _ _ _).mp hv
      obtain ⟨_, h3, h4⟩ := (bind_eq_ok _ _ _).mp h
      exact .inl ⟨h1, h2, h3, (Except.ok.inj h4).symm⟩
    | streak =>
      obtain ⟨h1, h2, h5⟩ := (selectVariant_streak _ _ _).mp hv
      obtain ⟨_, h3, h4⟩ := (bind_eq_ok _ _ _).mp h
      exact .inr ⟨h1, h2, h5, h3, (Except.ok.inj h4).symm⟩
  · rintro ⟨hl, ⟨h1, h2, h3, rfl⟩ | ⟨h1, h2, h5, h3, rfl⟩⟩
    · refine ⟨.fullFrame4, (selectVariant_fullFrame _ _ _).mpr ⟨h1, h2⟩, ?_⟩
      simp [hl, runVariant, h3, bind, Except.bind]
    · refine ⟨.streak, (selectVariant_streak _ _ _).mpr ⟨h1, h2, h5⟩, ?_⟩
      simp [hl, runVariant, h3, bind, Except.bind]

/-! ### The moves -/

/-- The moves of the four-tap mapping, one iteration at a time. -/
theorem mem_fullFrameMoves (hdf h v : Nat) (m : Move) :
    m ∈ fullFrameMoves hdf h v ↔ ∃ i, i < v / 2 ∧ ∃ j, j < h / 2 ∧ m ∈ fullFrameGroup hdf h v i j := by
  simp [fullFrameMoves]

/-- The moves of the streak-camera mapping, one group at a time. -/
theorem mem_streakMoves (w v : Nat) (m : Move) :
    m ∈ streakMoves w v ↔ ∃ i, i < v / 2 ∧ ∃ j, j < w / 2 / 2 ∧ m ∈ streakGroup w i j := by
  simp [streakMoves]

end Sys2Proof.Machine
end

