-- ==== Sys2Proof/Laws/Sequence.lean ====
section
/-!
SUPPORT. What the checks, the plans and the commit phase of `CFGSEQ` can do.
-/

namespace Sys2Proof.Machine

theorem checkParamCount_ok (t : SequenceType) (ps : List S64) :
    checkParamCount t ps = .ok () ↔ requiredParams t ≤ ps.length := by
  unfold checkParamCount; split <;> simp <;> omega

theorem checkFrames_ok (c : Config) (nf : Int) :
    checkFrames c nf = .ok () ↔ (descriptor c 1).minimum ≤ nf ∧ nf ≤ (descriptor c 1).maximum := by
  unfold checkFrames
  split
  · simp; omega
  · split <;> simp <;> omega

theorem checkBulb_ok (t : SequenceType) (nf : Int) :
    checkBulb t nf = .ok () ↔ (t = .bulb → nf = 1) := by
  unfold checkBulb
  split
  · next h => simp [h.1, h.2]
  · next h => simp only [true_iff]; intro ht; by_contra hn; exact h ⟨ht, hn⟩

theorem exposureSteps_ok (c : Config) (e n : Int) :
    exposureSteps c e = .ok n ↔
      0 ≤ e ∧ n = floorDiv e c.stepSize ∧ (descriptor c 2).minimum ≤ n ∧ n ≤ (descriptor c 2).maximum := by
  unfold exposureSteps
  split
  · simp; omega
  · split
    · simp; omega
    · simp only [Except.ok.injEq]; constructor
      · rintro rfl; omega
      · rintro ⟨-, rfl, -⟩; rfl

theorem gapSteps_ok (c : Config) (g n : Int) :
    gapSteps c g = .ok n ↔
      0 ≤ g ∧ n = floorDiv g c.stepSize ∧ 1 ≤ n ∧ n ≤ c.gapStepsMax := by
  unfold gapSteps
  split
  · simp; omega
  · split
    · simp; omega
    · split
      · simp; omega
      · simp only [Except.ok.injEq]; constructor
        · rintro rfl; omega
        · rintro ⟨-, rfl, -⟩; rfl

theorem frameGap_ok (c : Config) (t : SequenceType) (nf g : Int) (r : Option Int) :
    frameGap c t nf g = .ok r ↔
      (t = .continuous ∧ r = some 1) ∨
        (t ≠ .continuous ∧ 1 < nf ∧ ∃ n, gapSteps c g = .ok n ∧ r = some n) ∨
        (t ≠ .continuous ∧ ¬1 < nf ∧ r = none) := by
  unfold frameGap
  split
  · next h => simp [h, eq_comm]
  · next h =>
    split
    · next h1 => simp [h, h1, bind_eq_ok, @eq_comm _ r]
    · next h1 => simp [h, h1, eq_comm]

theorem streakLines_ok (c : Config) (p n : Int) :
    streakLines c p = .ok n ↔
      n = floorQ c p ∧ (descriptor c 4).minimum ≤ n ∧ n ≤ (descriptor c 4).maximum := by
  unfold streakLines
  split
  · simp; omega
  · simp only [Except.ok.injEq]; constructor
    · rintro rfl; omega
    · rintro ⟨rfl, -⟩; rfl

theorem checkSubimageCounts_ok (c : Config) (p0 p1 : Int) :
    checkSubimageCounts c p0 p1 = .ok () ↔
      0 ≤ p0 ∧ 0 ≤ p1 ∧ subimageTotal c p0 p1 ≤ c.subimageLinesMax := by
  unfold checkSubimageCounts
  split
  · simp; omega
  · split <;> simp <;> omega

theorem subframeSize_ok (c : Config) (p n : Int) :
    subframeSize c p = .ok n ↔
      n = floorDiv p (2 * c.qDenom) ∧ (descriptor c 5).minimum ≤ n ∧ n ≤ (descriptor c 5).maximum := by
  unfold subframeSize
  split
  · simp; omega
  · simp only [Except.ok.injEq]; constructor
    · rintro rfl; omega
    · rintro ⟨rfl, -⟩; rfl

theorem subimagesPerRead_ok (c : Config) (p n : Int) :
    subimagesPerRead c p = .ok n ↔
      n = floorQ c p ∧ (descriptor c 6).minimum ≤ n ∧ n ≤ (descriptor c 6).maximum := by
  unfold subimagesPerRead
  split
  · simp; omega
  · simp only [Except.ok.injEq]; constructor
    · rintro rfl; omega
    · rintro ⟨rfl, -⟩; rfl

/-- The plan of a frame-based type, and when there is one. -/
theorem frameBasedPlan_ok (s : State) (t : SequenceType) (ps : List S64) (nf e f : Int)
    (p : SequencePlan) :
    frameBasedPlan s t ps nf e f = .ok p ↔
      checkParamCount t ps = .ok () ∧ checkBulb t nf = .ok () ∧ checkFrames s.cfg nf = .ok () ∧
        ∃ es, exposureSteps s.cfg e = .ok es ∧
          ∃ gap, frameGap s.cfg t nf (f - e - s.readoutTime.toInt) = .ok gap ∧
            p = ⟨leaveToFullFrame s.cfg s.mode (prologueWord s.cfg t (s.reg 0)),
              s.mode == streakCamera, false, nf, es, gap, .frameBased⟩ := by
  simp [frameBasedPlan, bind_eq_ok, Unique.exists_iff, @eq_comm _ p]

/-- The plan of `CFGSEQ.STREAK`, and when there is one. -/
theorem streakPlan_ok (s : State) (ps : List S64) (p : SequencePlan) :
    streakPlan s ps = .ok p ↔
      checkParamCount .streak ps = .ok () ∧ checkFrames s.cfg 1 = .ok () ∧
        ∃ lines, streakLines s.cfg (param ps 0) = .ok lines ∧
          ∃ es, exposureSteps s.cfg (param ps 1) = .ok es ∧
            ∃ gs, gapSteps s.cfg (param ps 2 - param ps 1) = .ok gs ∧
              p = ⟨if s.mode ≠ streakCamera then
                  withMode s.cfg streakCamera (prologueWord s.cfg .streak (s.reg 0))
                else prologueWord s.cfg .streak (s.reg 0),
                false, s.mode != streakCamera, 1, es, some gs, .streak lines (floorDiv lines 2)⟩ := by
  simp [streakPlan, bind_eq_ok, Unique.exists_iff, @eq_comm _ p]

/-- The plan of `CFGSEQ.SUBIMAGE`, and when there is one. -/
theorem subimagePlan_ok (s : State) (ps : List S64) (p : SequencePlan) :
    subimagePlan s ps = .ok p ↔
      checkParamCount .subimage ps = .ok () ∧
        checkSubimageCounts s.cfg (param ps 0) (param ps 1) = .ok () ∧ checkFrames s.cfg 1 = .ok () ∧
        ∃ sf, subframeSize s.cfg (param ps 0) = .ok sf ∧
          ∃ sp, subimagesPerRead s.cfg (param ps 1) = .ok sp ∧
            ∃ es, exposureSteps s.cfg (param ps 2) = .ok es ∧
              ∃ gs, gapSteps s.cfg (param ps 3 - param ps 2) = .ok gs ∧
                p = ⟨if s.mode ≠ subImage then
                    withMode s.cfg subImage (prologueWord s.cfg .subimage (s.reg 0))
                  else prologueWord s.cfg .subimage (s.reg 0),
                  s.mode == streakCamera, false, 1, es, some gs, .subimage sf sp⟩ := by
  simp [subimagePlan, bind_eq_ok, Unique.exists_iff, @eq_comm _ p]

/-- The two outcomes of a sequence command. -/
theorem runSequence_cases (s t : State) (r : Except Failure SequencePlan)
    (h : runSequence s r = .next t) :
    (∃ p, r = .ok p ∧ t = (commitPlan s p).complete 0) ∨ (∃ f, r = .error f ∧ t = s.raise f) := by
  cases r with
  | ok p => exact .inl ⟨p, rfl, by simpa [runSequence, finish, Except.map] using h.symm⟩
  | error f => exact .inr ⟨f, rfl, by simpa [runSequence, finish, Except.map] using h.symm⟩

theorem runSequence_ok (s : State) (p : SequencePlan) :
    runSequence s (.ok p) = .next ((commitPlan s p).complete 0) := rfl
theorem runSequence_error (s : State) (f : Failure) :
    runSequence s (.error f) = .next (s.raise f) := rfl

/-! ### What the commit phase writes -/

@[simp] theorem branchRegs_length (b : SequenceBranch) (r : List Word) :
    (branchRegs b r).length = r.length := by cases b <;> simp [branchRegs]

@[simp] theorem gapRegs_length (g : Option Int) (r : List Word) :
    (gapRegs g r).length = r.length := by cases g <;> simp [gapRegs]

@[simp] theorem controlRegs_length (o n : Word) (r : List Word) :
    (controlRegs o n r).length = r.length := by unfold controlRegs; split <;> simp

/-- `REG[0]` after the last step of the commit phase is the new control word, written or not. -/
theorem controlRegs_zero (o n : Word) (r : List Word) (hr : 0 < r.length) (ho : r.getD 0 0 = o) :
    (controlRegs o n r).getD 0 0 = n := by
  unfold controlRegs
  split
  · simp [hr]
  · next h => rw [ho]; simpa using Eq.symm (by simpa using h)

theorem controlRegs_other (o n : Word) (r : List Word) (k : Nat) (hk : k ≠ 0) :
    (controlRegs o n r).getD k 0 = r.getD k 0 := by
  unfold controlRegs
  split
  · simp [List.getD_eq_getElem?_getD, Ne.symm hk]
  · rfl

/-! ### The limits a legal configuration gives the sub-image registers -/

/-- `10_state.md` R23: the maxima of registers 5 and 6 follow `SUBIMAGE_LINES_MAX`. -/
theorem legal_subimage_maxima (c : Config) (h : c.legal) :
    (descriptor c 5).maximum = c.subimageLinesMax / 2 ∧
      (descriptor c 6).maximum = c.subimageLinesMax := by
  obtain ⟨-, -, ⟨names, -, -, -, max5, max6⟩, -⟩ := h
  have seven : 7 ≤ c.desc.length := by
    have len := congrArg List.length names
    simp [Config.architected] at len
    omega
  constructor
  · exact max5 _ (by simp [descriptor, List.getD_eq_getElem?_getD, show 5 < c.desc.length by omega])
  · exact max6 _ (by simp [descriptor, List.getD_eq_getElem?_getD, show 6 < c.desc.length by omega])

end Sys2Proof.Machine
end

