-- ==== Sys2Proof/Laws/Step.lean ====
section
/-!
SUPPORT. What one step can be, and what an environment move can do.
-/

namespace Sys2Proof.Machine

@[simp] theorem leadingWords_word (w : Word) (l : List HostEvent) :
    leadingWords (.word w :: l) = w :: leadingWords l := rfl

@[simp] theorem leadingWords_map_word (ws : List Word) (l : List HostEvent) :
    leadingWords (ws.map HostEvent.word ++ l) = ws ++ leadingWords l := by
  induction ws with
  | nil => rfl
  | cons w ws ih => simp [ih]

/-- A step is a command, an answer to a frame that is none, the receipt of words, a move of the
environment, or a wait. -/
theorem step_cases (s t : State) (h : step s = .next t) :
    (∃ i, decode s.pendingWords = .ok i ∧ exec i (s.consume (pendingLength s.pendingWords)) = .next t) ∨
    (∃ r, r ≠ .incomplete ∧ decode s.pendingWords = .error r ∧
      answerReject (pendingHeader s.pendingWords) r (s.consume (pendingLength s.pendingWords)) = .next t) ∨
    (decode s.pendingWords = .error .incomplete ∧ ∃ w rest, s.input = .word w :: rest ∧ t = s.receive) ∨
    (decode s.pendingWords = .error .incomplete ∧ ∃ e rest, s.input = e :: rest ∧
      (∀ w, e ≠ .word w) ∧ environmentMove e { s with input := rest } = .next t) ∨
    (decode s.pendingWords = .error .incomplete ∧ s.input = [] ∧ t = s) := by
  unfold step at h
  split at h
  · next i hd => exact .inl ⟨i, hd, h⟩
  · next hd =>
    unfold stepPort at h
    split at h
    · next hi => exact .inr (.inr (.inr (.inr ⟨hd, hi, by simpa using h.symm⟩)))
    · next w rest hi => exact .inr (.inr (.inl ⟨hd, w, rest, hi, by simpa using h.symm⟩))
    · next e rest hne hi =>
      exact .inr (.inr (.inr (.inl ⟨hd, e, rest, hi, fun w hw => hne w hw, h⟩)))
  · next r hne hd => exact .inr (.inl ⟨r, fun hr => hne hr, hd, h⟩)

/-- The answer to a frame that is no command is an error and nothing else. -/
theorem answerReject_cases (hd : Word) (r : Reject) (s t : State) (hr : r ≠ .incomplete)
    (h : answerReject hd r s = .next t) : ∃ f, t = s.raise f := by
  cases r with
  | incomplete => exact absurd rfl hr
  | badOpcode => exact ⟨_, by simpa [answerReject] using h.symm⟩
  | badReservedBits => exact ⟨_, by simpa [answerReject] using h.symm⟩
  | badLength => exact ⟨_, by simpa [answerReject] using h.symm⟩
  | unknownSequence b => exact ⟨_, by simpa [answerReject, runUnknownSequence] using h.symm⟩

/-- What each move of the environment does. -/
theorem environmentMove_cases (e : HostEvent) (s t : State) (h : environmentMove e s = .next t) :
    (∃ w, e = .word w ∧ t = { s with rx := s.rx ++ [w] }) ∨
    (∃ a v, e = .loadRaw a v ∧ a < s.cfg.rawLen ∧ t = { s with raw := s.raw.writeSample a v }) ∨
    (∃ a, e = .readImage a ∧ a < s.cfg.imgLen ∧
      t = { s with answers := s.answers ++ [.sample a (s.imgSample a)] }) ∨
    (e = .readMeta ∧ t = { s with answers := s.answers ++ [.imageMeta s.imgMeta] }) ∨
    (∃ l, e = .loadLut l ∧ s.lutLoaded = false ∧ l.length = s.cfg.lutLen ∧
      t = { s with lut := cellsOfTable 0 l, lutLoaded := true }) ∨
    (∃ r, e = .setReadoutTime r ∧ 0 ≤ r.toInt ∧ t = { s with readoutTime := r }) ∨
    (e = .reset ∧ t = s.applyReset) := by
  cases e with
  | word w => exact .inl ⟨w, rfl, by simpa [environmentMove] using h.symm⟩
  | loadRaw a v =>
    simp only [environmentMove, loadRaw] at h
    split at h
    · next ha => exact .inr (.inl ⟨a, v, rfl, ha, by simpa using h.symm⟩)
    · cases h
  | readImage a =>
    simp only [environmentMove, readImage] at h
    split at h
    · next ha => exact .inr (.inr (.inl ⟨a, rfl, ha, by simpa using h.symm⟩))
    · cases h
  | readMeta => exact .inr (.inr (.inr (.inl ⟨rfl, by simpa [environmentMove, readMeta] using h.symm⟩)))
  | loadLut l =>
    simp only [environmentMove, loadLut] at h
    split at h
    · cases h
    · next hl =>
      split at h
      · next hlen =>
        exact .inr (.inr (.inr (.inr (.inl ⟨l, rfl, by simpa using hl, hlen, by simpa using h.symm⟩))))
      · cases h
  | setReadoutTime r =>
    simp only [environmentMove, setReadoutTime] at h
    split at h
    · cases h
    · next hr =>
      exact .inr (.inr (.inr (.inr (.inr (.inl ⟨r, rfl, by omega, by simpa using h.symm⟩)))))
  | reset =>
    exact .inr (.inr (.inr (.inr (.inr (.inr ⟨rfl, by simpa [environmentMove] using h.symm⟩)))))

end Sys2Proof.Machine
end

