-- ==== Sys2Proof/Laws/Encoding.lean ====
section
/-!
SUPPORT. The header's fields, the two words of a parameter, and the decimals that have one.
-/

namespace Sys2Proof

@[simp] theorem headerOpc_header (a b n : Byte) : headerOpc (header a b n) = a := by
  apply BitVec.eq_of_getLsbD_eq
  intro i hi
  simp only [headerOpc, header, BitVec.getLsbD_extractLsb', BitVec.getLsbD_append]
  simp [hi, show ¬24 + i < 16 by omega, show ¬24 + i - 16 < 8 by omega,
    show 24 + i - 16 - 8 = i by omega]

@[simp] theorem headerSub_header (a b n : Byte) : headerSub (header a b n) = b := by
  apply BitVec.eq_of_getLsbD_eq
  intro i hi
  simp only [headerSub, header, BitVec.getLsbD_extractLsb', BitVec.getLsbD_append]
  simp [hi]

@[simp] theorem headerRsv_header (a b n : Byte) : headerRsv (header a b n) = 0 := by
  apply BitVec.eq_of_getLsbD_eq
  intro i hi
  simp only [headerRsv, header, BitVec.getLsbD_extractLsb', BitVec.getLsbD_append]
  simp [hi, show 8 + i < 16 by omega]

/-- The header gives back the operand count it was made with. -/
@[simp] theorem headerNw_header (a b n : Byte) : headerNw (header a b n) = n.toNat := by
  have h : (header a b n).extractLsb' 0 8 = n := by
    apply BitVec.eq_of_getLsbD_eq
    intro i hi
    simp only [header, BitVec.getLsbD_extractLsb', BitVec.getLsbD_append]
    simp [hi, show i < 16 by omega]
  rw [headerNw, h]

/-- A header with `RSV` zero is made of its three other fields. -/
theorem header_eta (h : Word) (hr : headerRsv h = 0) :
    header (headerOpc h) (headerSub h) (BitVec.ofNat 8 (headerNw h)) = h := by
  have hn : BitVec.ofNat 8 (headerNw h) = h.extractLsb' 0 8 := by
    simp only [headerNw, BitVec.ofNat_toNat, BitVec.setWidth_eq]
  rw [hn, header, ← hr]
  apply BitVec.eq_of_getLsbD_eq
  intro i hi
  simp only [headerOpc, headerSub, headerRsv, BitVec.getLsbD_append, BitVec.getLsbD_extractLsb']
  split
  · split
    · simp_all
    · simp_all; omega
  · split
    · next h1 h2 => simp [h2]; congr 1; omega
    · next h1 h2 => simp [show i - 16 - 8 < 8 by omega]; congr 1; omega

theorem length_wordsOfParams (ps : List S64) : (wordsOfParams ps).length = 2 * ps.length := by
  induction ps with
  | nil => rfl
  | cons p ps ih =>
    simp only [wordsOfParams, List.flatMap_cons, List.length_append] at ih ⊢
    simp only [ih, wordsOfParam, List.length_cons, List.length_nil]; omega

/-- A parameter is the one its two words carry (`30_encoding.md` R74). -/
@[simp] theorem paramOfWords_wordsOfParam (p : S64) :
    paramOfWords (p.extractLsb' 0 32) (p.extractLsb' 32 32) = p := by
  apply BitVec.eq_of_getLsbD_eq
  intro i hi
  simp only [paramOfWords, BitVec.getLsbD_append, BitVec.getLsbD_extractLsb']
  split
  · simp_all
  · simp_all; omega

/-- The words of a parameter made of two words are those two. -/
theorem wordsOfParam_paramOfWords (lo hi : Word) : wordsOfParam (paramOfWords lo hi) = [lo, hi] := by
  simp only [wordsOfParam, paramOfWords, List.cons.injEq, and_true]
  constructor <;>
    · apply BitVec.eq_of_getLsbD_eq
      intro i hi
      simp only [BitVec.getLsbD_extractLsb', BitVec.getLsbD_append]
      simp [hi]

/-- The parameters are those their words carry. -/
theorem paramsOfWords_wordsOfParams (ps : List S64) : paramsOfWords (wordsOfParams ps) = ps := by
  induction ps with
  | nil => rfl
  | cons p ps ih =>
    have h : wordsOfParams (p :: ps) =
        p.extractLsb' 0 32 :: p.extractLsb' 32 32 :: wordsOfParams ps := rfl
    rw [h, paramsOfWords, ih, paramOfWords_wordsOfParam]

/-- An even number of words is those of its parameters. -/
theorem wordsOfParams_paramsOfWords :
    ∀ ws : List Word, ws.length % 2 = 0 → wordsOfParams (paramsOfWords ws) = ws
  | [], _ => rfl
  | [_], h => by simp at h
  | lo :: hi :: ws, h => by
    have h1 : wordsOfParams (paramsOfWords (lo :: hi :: ws)) =
        wordsOfParam (paramOfWords lo hi) ++ wordsOfParams (paramsOfWords ws) := rfl
    rw [h1, wordsOfParam_paramOfWords, wordsOfParams_paramsOfWords ws (by simp at h; omega)]
    rfl

theorem length_paramsOfWords : ∀ ws : List Word, (paramsOfWords ws).length = ws.length / 2
  | [] => rfl
  | [_] => by simp [paramsOfWords]
  | lo :: hi :: ws => by
    simp only [paramsOfWords, List.length_cons, length_paramsOfWords ws]
    omega

/-- A parameter that `qParam` answers stands for its decimal exactly: nothing was wrapped or rounded
(`00_scope.md` R9). -/
theorem qParam_exact (c : Config) (digits : Int) (places : Nat) (p : S64)
    (h : Machine.qParam c digits places = some p) : p.toInt * 10 ^ places = digits * c.qDenom := by
  simp only [Machine.qParam] at h
  split at h
  · rename_i hq
    obtain ⟨exact, low, high⟩ := hq
    rw [← Option.some.inj h, BitVec.toInt_ofInt_eq_self (by decide) low
      (by simpa [Machine.s64Max] using Int.lt_add_one_of_le high)]
    exact exact
  · cases h

end Sys2Proof
end

