-- ==== Sys2Proof/Laws/PerInstr.lean ====
section
/-!
SUPPORT. Families of statements made for each command.
-/

namespace Sys2Proof.Laws

/-- The frame of a well-formed command is as long as its own header announces (`30_encoding.md` R71). -/
def FrameAnnounced.Statement (i : Instr) : Prop :=
  i.wellFormed = true → Machine.pendingLength (encode i) = (encode i).length

theorem frameLength_sequence (a b : Byte) (ps : List S64) (h : paramCountOk ps) :
    frameLength (header a b (BitVec.ofNat 8 (2 * ps.length))) = 1 + 2 * ps.length := by
  simp only [frameLength, headerNw_header, BitVec.toNat_ofNat]; omega

theorem encodeSequence_announced (t : Byte) (ps : List S64) (h : decide (paramCountOk ps) = true) :
    Machine.pendingLength (encodeSequence t ps) = (encodeSequence t ps).length := by
  simp only [encodeSequence, Machine.pendingLength, frameLength_sequence _ _ _ (of_decide_eq_true h),
    List.length_cons, length_wordsOfParams]; omega

theorem FrameAnnounced.rdreg (addr : Word) : FrameAnnounced.Statement (.rdreg addr) := fun _ => rfl
theorem FrameAnnounced.wrreg (addr value : Word) : FrameAnnounced.Statement (.wrreg addr value) :=
  fun _ => rfl
theorem FrameAnnounced.getps (id : Word) : FrameAnnounced.Statement (.getps id) := fun _ => rfl
theorem FrameAnnounced.setps (id value : Word) : FrameAnnounced.Statement (.setps id value) :=
  fun _ => rfl
theorem FrameAnnounced.cfgseqOneshot (params : List S64) :
    FrameAnnounced.Statement (.cfgseqOneshot params) := encodeSequence_announced _ _
theorem FrameAnnounced.cfgseqContinuous (params : List S64) :
    FrameAnnounced.Statement (.cfgseqContinuous params) := encodeSequence_announced _ _
theorem FrameAnnounced.cfgseqMultiframe (params : List S64) :
    FrameAnnounced.Statement (.cfgseqMultiframe params) := encodeSequence_announced _ _
theorem FrameAnnounced.cfgseqCircular (params : List S64) :
    FrameAnnounced.Statement (.cfgseqCircular params) := encodeSequence_announced _ _
theorem FrameAnnounced.cfgseqStrobe (params : List S64) :
    FrameAnnounced.Statement (.cfgseqStrobe params) := encodeSequence_announced _ _
theorem FrameAnnounced.cfgseqBulb (params : List S64) :
    FrameAnnounced.Statement (.cfgseqBulb params) := encodeSequence_announced _ _
theorem FrameAnnounced.cfgseqGeometrical (params : List S64) :
    FrameAnnounced.Statement (.cfgseqGeometrical params) := encodeSequence_announced _ _
theorem FrameAnnounced.cfgseqStreak (params : List S64) :
    FrameAnnounced.Statement (.cfgseqStreak params) := encodeSequence_announced _ _
theorem FrameAnnounced.cfgseqSubimage (params : List S64) :
    FrameAnnounced.Statement (.cfgseqSubimage params) := encodeSequence_announced _ _
theorem FrameAnnounced.descr : FrameAnnounced.Statement .descr := fun _ => rfl
theorem FrameAnnounced.descrLin : FrameAnnounced.Statement .descrLin := fun _ => rfl

end Sys2Proof.Laws
end

