-- ==== Sys2Proof/Tests/Slice0.lean ====
section
/-!
SUPPORT. Tests on fixed values, each from the spec's own worked encodings (`30_encoding.md` section 8) and
test vectors (`95_test_vectors.md`, cited by their id), and a witness for the hypotheses of each
statement that has some.
-/

namespace Sys2Proof.Tests

open Sys2Proof.Machine

/-! ### Helpers -/

/-- The next state of an outcome. -/
def answered (o : Host.Outcome State Fault Refusal) : Option State :=
  match o with
  | .next t => some t
  | .fault _ => none
  | .refused _ => none

/-- The reason of a refusal. -/
def refusal (o : Host.Outcome State Fault Refusal) : Option Refusal :=
  match o with
  | .next _ => none
  | .fault _ => none
  | .refused r => some r

/-- A block just reset, with the reference configuration of a model. -/
def block (m : DetectorModel) : State := State.resetOf (Config.reference m)

/-- The reset block of the test vectors with the readout time of `q(0.005)`. -/
def slow : State := { State.reset with readoutTime := 5000000 }

/-- A reset block with a frame size, a control word and the first samples of `RAW`. -/
def framed (m : DetectorModel) (h v : S64) (control : Word) (raw : List Sample) : State :=
  { block m with
    regs := (block m).regs.set 0 control
    geom := ⟨h, v, 1, 1⟩
    raw := cellsOfTable 0 raw }

/-- Words sent to a block. -/
def send (ws : List Word) (s : State) : State := { s with input := ws.map HostEvent.word }

/-- The response to a frame. -/
def responseTo (ws : List Word) (s : State) : Option (List Word) :=
  (answered (step (send ws s))).bind fun t => t.sent.getLast?

/-- The cause a command ends with, 0 for `OK`. -/
def causeOf (i : Instr) (s : State) : Option Nat :=
  (answered (exec i s)).bind fun t => t.sent.getLast?.map responseCause

/-- The registers 0 to 6 and the two geometries a command leaves. -/
def leaves (i : Instr) (s : State) : Option (List Word × FrameGeometry × FrameGeometry) :=
  (answered (exec i s)).map fun t => (t.regs.take 7, t.geom, t.saved)

/-- The first samples of the image a command leaves, its metadata, and the cause of the response. -/
def image (i : Instr) (n : Nat) (s : State) : Option (List Sample × ImageMeta × Nat) :=
  (answered (exec i s)).map fun t =>
    ((List.range n).map t.imgSample, t.imgMeta, responseCause (t.sent.getLastD []))

/-! ### WellFormed refuses what is ill formed -/

/-- The nine `CFGSEQ` commands. -/
def sequences : List (List S64 → Instr) :=
  [.cfgseqOneshot, .cfgseqContinuous, .cfgseqMultiframe, .cfgseqCircular, .cfgseqStrobe, .cfgseqBulb,
    .cfgseqGeometrical, .cfgseqStreak, .cfgseqSubimage]

/-- The checks of a configuration, as tests. -/
def legal (c : Config) : Bool := decide c.legal
def rangesOk (c : Config) : Bool := decide c.rangesOk
def architectedOk (c : Config) : Bool := decide c.architectedOk
def layoutOk (c : Config) : Bool := decide c.layoutOk
def numbersOk (c : Config) : Bool := decide c.numbersOk
def descriptorOk (d : RegDesc) : Bool := decide d.ok
def reference : Config := Config.reference .pccd4824

theorem test_wellFormed_refuses_no_parameter :
    sequences.map (fun mk => (mk []).wellFormed) = List.replicate 9 false := by decide

theorem test_wellFormed_refuses_nine_parameters :
    sequences.map (fun mk => (mk (List.replicate 9 0)).wellFormed) = List.replicate 9 false := by
  decide

theorem test_legal_reference : [DetectorModel.pccd170170, .pccd4824, .pccd16080].map
    (fun m => legal (Config.reference m)) = [true, true, true] := by decide

/-- R6 clause 1: ranges that overlap, or leave `u32`. -/
theorem test_illegal_ranges : [{ reference with dhPseudoBase := 100008 },
    { reference with dhPseudoBase := 4294967287 }, { reference with dhBase := 4294967288 }].map
      rangesOk = [false, false, false] := by decide

/-- R6 clause 2: a default outside the limits, a maximum above `u32`, a default that is no power of two. -/
theorem test_illegal_descriptor :
    [⟨.refSpare, 256, 0, 255, false, false⟩, ⟨.refSpare, 0, 1, 255, false, false⟩,
      ⟨.refSpare, 0, 0, 4294967296, false, false⟩, ⟨.refPow2, 3, 1, 128, false, true⟩].map
        descriptorOk = [false, false, false, false] := by decide

/-- R6 clause 3: a missing or read-only architected register, and a wrong limit of registers 0 and 3. -/
theorem test_illegal_architected :
    [{ reference with desc := Config.architected.take 6 },
      { reference with
        desc := Config.architected.set 1 ⟨.framesPerSequence, 1, 1, 65535, true, false⟩ },
      { reference with desc := Config.architected.set 0 ⟨.control, 0, 0, 65535, false, false⟩ },
      { reference with gapStepsMax := 65534 }].map architectedOk = [false, false, false, false] := by
  decide

/-- R6 clause 3 with R23: the maxima of registers 5 and 6 follow `SUBIMAGE_LINES_MAX`. -/
theorem test_subimage_maxima :
    [{ reference with
        desc := reference.desc.set 5 ⟨.subframeSize, 1, 1, 1023, false, false⟩ },
      { reference with
        desc := reference.desc.set 6 ⟨.subimagesPerRead, 1, 1, 2047, false, false⟩ },
      { reference with subimageLinesMax := 2050 }].map architectedOk = [false, false, false] ∧
    legal { reference with
      subimageLinesMax := 1000
      desc := (reference.desc.set 5 ⟨.subframeSize, 1, 1, 500, false, false⟩).set 6
        ⟨.subimagesPerRead, 1, 1, 1000, false, false⟩ } = true := by decide

/-- R6 clause 4: fields that overlap, leave the register, are missing, or have the wrong width. -/
theorem test_illegal_layout :
    [{ reference with layout := Config.referenceLayout.set 0 (some ⟨1, 1⟩) },
      { reference with layout := Config.referenceLayout.set 9 (some ⟨31, 2⟩) },
      { reference with layout := Config.referenceLayout.set 3 none },
      { reference with layout := Config.referenceLayout.set 1 (some ⟨1, 1⟩) },
      { reference with layout := Config.referenceLayout.take 9 }].map layoutOk =
    [false, false, false, false, false] := by decide

/-- R6 clauses 5 to 7. -/
theorem test_illegal_numbers :
    [{ reference with stepSize := 0 }, { reference with qDenom := 0 }, { reference with numTaps := 3 },
      { reference with hdf := 4, numTaps := 8, lutLen := 524288 }, { reference with lutLen := 65536 },
      { reference with resetFramesizeV := 0 }, { reference with resetReadoutTime := -1 }].map
        numbersOk = [false, false, false, false, false, false, false] := by decide

/-! ### The arithmetic of `00_scope.md` -/

/-- S1 and R10: the floor goes toward minus infinity. -/
theorem test_floorDiv : floorDiv 4294967295999999 1000000 = 4294967295 ∧ floorDiv 999999 1000000 = 0 ∧
    floorDiv (-3) 2 = -2 ∧ floorDiv (-4) 2 = -2 := by decide

/-- R11: ties go away from zero. -/
theorem test_roundDiv : roundDiv 5 2 = 3 ∧ roundDiv (-5) 2 = -3 ∧ roundDiv 4 3 = 1 ∧
    roundDiv (-4) 3 = -1 ∧ roundDiv 499999999 1000000000 = 0 := by decide

/-- R12 and R232 at their boundaries. -/
theorem test_isPow2_and_saturation :
    isPow2 0x80000000 = true ∧ isPow2 1 = true ∧ isPow2 0 = false ∧ isPow2 48 = false ∧
      isPow2 0xFFFFFFFF = false ∧ saturateS64 9223372036854775808 = 0x7FFFFFFFFFFFFFFF ∧
      saturateS64 (-9223372036854775809) = 0x8000000000000000 ∧
      saturateS64 (-1) = 0xFFFFFFFFFFFFFFFF := by decide

/-! ### Decoding: words written out from the spec, one frame at least for each command -/

theorem test_decode_rdreg : decode [0x01000001, 0x000186A3] = .ok (.rdreg 100003) := rfl
theorem test_decode_wrreg :
    decode [0x02000002, 0x000186A3, 0x00000028] = .ok (.wrreg 100003 40) := rfl
theorem test_decode_getps : decode [0x03000001, 0x00030D41] = .ok (.getps 200001) := rfl
theorem test_decode_setps :
    decode [0x04000002, 0x00030D44, 0x00000001] = .ok (.setps 200004 1) := rfl
theorem test_decode_oneshot :
    decode [0x05010002, 0x1DCD6500, 0] = .ok (.cfgseqOneshot [500000000]) := rfl
/-- Program P2, step 11. -/
theorem test_decode_continuous :
    decode [0x05020002, 0x02FAF080, 0] = .ok (.cfgseqContinuous [50000000]) := rfl
theorem test_decode_multiframe :
    decode [0x05030006, 0x540BE400, 2, 0x00989680, 0, 0x01312D00, 0] =
      .ok (.cfgseqMultiframe [10000000000, 10000000, 20000000]) := rfl
theorem test_decode_circular :
    decode [0x05040006, 0xB2D05E00, 0, 0x00989680, 0, 0x01312D00, 0] =
      .ok (.cfgseqCircular [3000000000, 10000000, 20000000]) := rfl
theorem test_decode_strobe :
    decode [0x05050006, 0x77359400, 0, 0x05F5E100, 0, 0x08F0D180, 0] =
      .ok (.cfgseqStrobe [2000000000, 100000000, 150000000]) := rfl
/-- S5. -/
theorem test_decode_bulb :
    decode [0x05060004, 0x77359400, 0, 0x05F5E100, 0] = .ok (.cfgseqBulb [2000000000, 100000000]) := rfl
theorem test_decode_geometrical :
    decode [0x05070008, 0xEE6B2800, 0, 0x00989680, 0, 0x01C9C380, 0, 0x77359400, 0] =
      .ok (.cfgseqGeometrical [4000000000, 10000000, 30000000, 2000000000]) := rfl
theorem test_decode_streak :
    decode [0x05080006, 0x65A0BC00, 1, 0x001E8480, 0, 0x004C4B40, 0] =
      .ok (.cfgseqStreak [6000000000, 2000000, 5000000]) := rfl
theorem test_decode_subimage :
    decode [0x05090008, 0xEE6B2800, 0, 0xB2D05E00, 0, 0x00989680, 0, 0x01312D00, 0] =
      .ok (.cfgseqSubimage [4000000000, 3000000000, 10000000, 20000000]) := rfl
theorem test_decode_descr : decode [0x06000000] = .ok .descr := rfl
theorem test_decode_descrLin : decode [0x06010000] = .ok .descrLin := rfl
/-- A negative parameter, low word first. -/
theorem test_decode_negative_parameter :
    decode [0x05010002, 0xFFF0BDC0, 0xFFFFFFFF] = .ok (.cfgseqOneshot [-1000000]) := rfl
/-- The opcode table's numbering: the words above `nbits` are zero. -/
theorem test_decodeTableWord :
    decodeTableWord 32 0x02000002 = some (.wrreg 0 0) ∧
      decodeTableWord 64 0x000186A301000001 = some (.rdreg 100003) ∧
      decodeTableWord 32 0x05090002 = some (.cfgseqSubimage [0]) ∧
      decodeTableWord 32 0x05010000 = none := by decide

/-- The symbols and abbreviations of R81 and R82. -/
theorem test_assembler :
    registerAddress (Config.reference .pccd4824) .gapSteps = some 100003 ∧
      registerAddress (Config.reference .pccd16080) .refPow2 = none ∧
      pseudoId (Config.reference .pccd4824) .overExposureWarning = 200009 ∧
      qParam (Config.reference .pccd4824) (-15) 1 = some (BitVec.ofInt 64 (-1500000000)) ∧
      rdctl (Config.reference .pccd4824) = .rdreg 100000 ∧
      wrctl (Config.reference .pccd4824) 2 = .wrreg 100000 2 := by decide

/-- R9: the greatest and the least `s64` have a decimal, the numbers beside them have none, nor has a
tenth of a unit (assumption log 20). -/
theorem test_qParam_range :
    [qParam reference 9223372036854775807 9, qParam reference (-9223372036854775808) 9] =
        [some 9223372036854775807#64, some 9223372036854775808#64] ∧
      [qParam reference 9223372036854775808 9, qParam reference (-9223372036854775809) 9,
        qParam reference 1 10] = [none, none, none] := by decide

/-! ### Frames the decoder rejects (section 6, E1 to E14): the response's first three words -/

theorem test_rejects_bad_opcode :
    [responseTo [0x00000000] State.reset, responseTo [0xFF000000] State.reset,
      responseTo [0x07000001, 5] State.reset, responseTo [0x07000100] State.reset].map
        (Option.map (List.take 3)) =
    [some [0x0001020A, 0, 0x00000000], some [0x0001020A, 0, 0xFF000000],
      some [0x0001020A, 0, 0x07000001], some [0x0001020A, 0, 0x07000100]] := by decide

/-- E2: all 255 operand words are taken. -/
theorem test_rejects_longest_frame :
    (responseTo (0xFFFFFFFF :: List.replicate 255 0) State.reset).map (List.take 3) =
        some [0x0001020A, 0, 0xFFFFFFFF] ∧
      responseTo (0xFFFFFFFF :: List.replicate 254 0) State.reset = none := by decide +kernel

theorem test_rejects_reserved_bits :
    [responseTo [0x01000101, 0x000186A0] State.reset, responseTo [0x01010001, 0x000186A0] State.reset,
      responseTo [0x06020000] State.reset, responseTo [0x01010102, 1, 2] State.reset].map
        (Option.map (List.take 3)) =
    [some [0x0002020A, 0, 0x01000101], some [0x0002020A, 0, 0x01010001],
      some [0x0002020A, 0, 0x06020000], some [0x0002020A, 0, 0x01010102]] := by decide

theorem test_rejects_length :
    [responseTo [0x01000002, 0x000186A0, 0] State.reset, responseTo [0x02000001, 0x000186A0] State.reset,
      responseTo [0x05010000] State.reset, responseTo [0x05010003, 1, 2, 3] State.reset,
      responseTo (0x05010012 :: List.replicate 18 0) State.reset,
      responseTo [0x06000001, 0] State.reset].map (Option.map (List.take 5)) =
    [some [0x0003020A, 0, 0x01000002, 0, 2], some [0x0003020A, 0, 0x02000001, 0, 1],
      some [0x0003020A, 0, 0x05010000, 0, 0], some [0x0003020A, 0, 0x05010003, 0, 3],
      some [0x0003020A, 0, 0x05010012, 0, 18], some [0x0003020A, 0, 0x06000001, 0, 1]] := by
  decide

/-- Q36, Q37, Q38: an unknown sequence type is an argument error, not a decoder error. -/
theorem test_unknown_type :
    [responseTo [0x05000002, 0x3B9ACA00, 0] State.reset,
      responseTo [0x050A0006, 0, 0, 0, 0, 0, 0] State.reset,
      responseTo [0x05FF0002, 0, 0] State.reset].map (Option.map (List.take 3)) =
    [some [0x001E0203, 0, 0], some [0x001E0203, 0, 10], some [0x001E0203, 0, 255]] := by
  decide

/-! ### RDREG, WRREG, GETPS, SETPS -/

/-- A5, with the whole response of section 6, and nothing else changed. -/
theorem test_rdreg_version : answered (exec (.rdreg 100007) State.reset) =
    some { State.reset with sent := [[0x00000200, 0x00004824, 0, 0, 0, 0, 0, 0, 0, 0]] } := by decide

/-- A22 (the address after the last register). -/
theorem test_rdreg_unmapped : responseTo [0x01000001, 0x000186A9] State.reset =
    some [0x000A0201, 0, 100009, 0, 100000, 0, 100008, 0, 0, 0] := by decide

/-- A10, with the whole response of section 6. -/
theorem test_wrreg_out_of_range : answered (exec (.wrreg 100003 65536) State.reset) =
    some { State.reset with
      sent := [[0x000C0207, 0, 0x000186A3, 0, 0x00010000, 0, 1, 0, 0x0000FFFF, 0]] } := by decide

/-- A8, A12, A15 and A19: a write, a read-only register, no power of two, a power of two. -/
theorem test_wrreg_cases :
    answered (exec (.wrreg 100003 65535) State.reset) =
        some { State.reset with
          regs := [0, 1, 0, 65535, 2, 1, 1, 0x4824, 1]
          sent := [[0x00000200, 0, 0, 0, 0, 0, 0, 0, 0, 0]] } ∧
      causeOf (.wrreg 100007 5) State.reset = some 11 ∧
      causeOf (.wrreg 100008 48) State.reset = some 13 ∧
      causeOf (.wrreg 100008 0) State.reset = some 12 ∧
      causeOf (.wrreg 100008 128) State.reset = some 0 := by decide

/-- S3: reads of `REG[0]` = 0xDEADBEEF. -/
theorem test_getps_fields :
    [200001, 200009, 200003].map (fun id => (answered (exec (.getps id)
        (framed .pccd4824 4 4 0xDEADBEFF []))).bind fun t => t.sent.getLast?.map responseData) =
      [some 3, some 1, some 1] := by decide

/-- Section 6: `GETPS 200010`. -/
theorem test_getps_unknown : responseTo [0x03000001, 0x00030D4A] State.reset =
    some [0x00140203, 0, 0x00030D4A, 0, 0, 0, 0, 0, 0, 0] := by decide

/-- S3: `SETPS PS_READOUT_MODE, 0` and `7` from 0xDEADBEEF. -/
theorem test_setps_mode :
    (leaves (.setps 200001 0) (framed .pccd4824 4 4 0xDEADBEEF [])).map (·.1.head?) =
        some (some 0xDEADBEE9) ∧
      (leaves (.setps 200001 7) (framed .pccd4824 4 4 0xDEADBEE9 [])).map (·.1.head?) =
        some (some 0xDEADBEEF) := by decide

/-- S3: `SETPS PS_DURATION_TRIGGER, 0xFFFFFFFF`; P4 step 7: an unknown id. -/
theorem test_setps_duration :
    (leaves (.setps 200003 0xFFFFFFFF) (framed .pccd4824 4 4 0xDEADBEEF [])).map (·.1.head?) =
        some (some 0xDEADBEFF) ∧ causeOf (.setps 200010 1) State.reset = some 20 := by decide

/-! ### CFGSEQ -/

/-- Q6 and T6. -/
theorem test_oneshot :
    answered (exec (.cfgseqOneshot [570000000]) State.reset) =
        some { State.reset with
          regs := [0, 1, 570, 1, 2, 1, 1, 0x4824, 1]
          sent := [[0x00000200, 0, 0, 0, 0, 0, 0, 0, 0, 0]] } ∧
      (leaves (.cfgseqOneshot [100000000]) (framed .pccd4824 4 4 0xFFFFF810 [])).map (·.1.head?) =
        some (some 0xFFFFF800) := by decide

/-- Q9, and the negative exposure of section 6. -/
theorem test_oneshot_fails :
    responseTo [0x05010002, 0xFFF0BDC0, 0xFFFFFFFF] State.reset =
        some [0x00230203, 0, 0xFFF0BDC0, 0xFFFFFFFF, 0x000F4240, 0, 0, 0, 0, 0] ∧
      causeOf (.cfgseqOneshot [4294967296000000]) State.reset = some 36 := by decide

/-- S6 and T7. -/
theorem test_continuous :
    leaves (.cfgseqContinuous [250000000, 100000]) { slow with regs := slow.regs.set 3 77 } =
        some ([0, 1, 250, 1, 2, 1, 1], slow.geom, slow.saved) ∧
      (leaves (.cfgseqContinuous [100000000]) (framed .pccd4824 4 4 0xFFFFFFFF [])).map (·.1.head?) =
        some (some 0xFFFFFFE9) := by decide

/-- S10, Q12 (one frame: the gap register is not written) and Q19 (1.5 frames round to 2). -/
theorem test_multiframe :
    (leaves (.cfgseqMultiframe [10000000000, 10000000, 20000000]) slow).map (·.1) =
        some [0, 10, 10, 5, 2, 1, 1] ∧
      (leaves (.cfgseqMultiframe [1000000000, 10000000, 0])
        { slow with regs := slow.regs.set 3 9 }).map (·.1) = some [0, 1, 10, 9, 2, 1, 1] ∧
      (leaves (.cfgseqMultiframe [1500000000, 10000000, 20000000]) State.reset).map (·.1) =
        some [0, 2, 10, 10, 2, 1, 1] := by decide

/-- Section 6: `CFGSEQ.MULTIFRAME 10, 0.01, 0.012` with a readout time of 5000000. -/
theorem test_multiframe_negative_gap : (answered (exec
      (.cfgseqMultiframe [10000000000, 10000000, 12000000]) slow)) = some { slow with
    sent := [[0x00250203, 0, 0xFFD23940, 0xFFFFFFFF, 0x000F4240, 0, 1, 0, 0xFFFF, 0]] } := by decide

/-- Q25. -/
theorem test_circular : (leaves (.cfgseqCircular [3000000000, 10000000, 20000000]) slow).map (·.1) =
    some [0, 3, 10, 5, 2, 1, 1] := by decide

/-- Q26 and Q28. -/
theorem test_strobe :
    (leaves (.cfgseqStrobe [2000000000, 100000000, 150000000]) State.reset).map (·.1) =
        some [0, 2, 100, 50, 2, 1, 1] ∧
      causeOf (.cfgseqStrobe [2000000000, 100000000]) State.reset = some 31 := by decide

/-- Q30 and T5. -/
theorem test_bulb :
    (leaves (.cfgseqBulb [1400000000, 100000000]) State.reset).map (·.1) =
        some [0x10, 1, 100, 1, 2, 1, 1] ∧
      (leaves (.cfgseqBulb [1000000000, 100000000]) (framed .pccd4824 4 4 0xFFFFF802 [])).map
        (·.1.head?) = some (some 0xFFFFF810) := by decide

/-- S5 and T4: the whole response, and the bit stays as it was. -/
theorem test_bulb_fails : answered (exec (.cfgseqBulb [2000000000, 100000000])
      (framed .pccd4824 4 4 0x10 [])) = some { framed .pccd4824 4 4 0x10 [] with
    sent := [[0x00200204, 0, 2, 0, 1, 0, 0, 0, 0, 0]] } := by decide

/-- Q27. -/
theorem test_geometrical :
    (leaves (.cfgseqGeometrical [4000000000, 10000000, 30000000, 2000000000]) State.reset).map (·.1) =
      some [0, 4, 10, 20, 2, 1, 1] := by decide

/-- K1 and the second row of S8. -/
theorem test_streak :
    leaves (.cfgseqStreak [6000000000, 2000000, 5000000]) State.reset =
        some ([4, 1, 2, 3, 6, 1, 1], ⟨4, 3, 1, 1⟩, ⟨4, 4, 1, 1⟩) ∧
      leaves (.cfgseqStreak [9900000000, 2000000, 5000000])
          { State.reset with regs := State.reset.regs.set 0 4, geom := ⟨4, 3, 1, 1⟩ } =
        some ([4, 1, 2, 3, 9, 1, 1], ⟨4, 4, 1, 1⟩, ⟨4, 4, 1, 1⟩) := by decide

/-- K7b: the floor of a negative line count. -/
theorem test_streak_negative_lines : responseTo
      [0x05080006, 0xA697D100, 0xFFFFFFFF, 0x001E8480, 0, 0x002DC6C0, 0] State.reset =
    some [0x00280203, 0, 0xA697D100, 0xFFFFFFFF, 0xFFFFFFFE, 0xFFFFFFFF, 2, 0, 65535, 0] := by
  decide

/-- K15 and W3 (the geometry is restored on leaving streak-camera mode). -/
theorem test_subimage :
    (leaves (.cfgseqSubimage [4000000000, 3000000000, 10000000, 20000000]) State.reset).map (·.1) =
        some [2, 1, 10, 10, 2, 2, 3] ∧
      leaves (.cfgseqSubimage [4000000000, 3000000000, 10000000, 20000000])
          { slow with regs := [4, 1, 2, 3, 6, 2, 3, 0x4824, 1], geom := ⟨4, 3, 1, 1⟩ } =
        some ([2, 1, 10, 10, 6, 2, 3], ⟨4, 4, 1, 1⟩, ⟨4, 4, 1, 1⟩) := by decide

/-- K17 and K18: the total is rounded once, and compared. -/
theorem test_subimage_total :
    causeOf (.cfgseqSubimage [1024000000000, 2000400000, 10000000, 20000000]) State.reset = some 0 ∧
      (answered (exec (.cfgseqSubimage [1024000000000, 2000500000, 10000000, 20000000])
        State.reset)).map (·.sent) =
        some [errorResponse .pccd4824 ⟨.seqSubimageTotal, 2049, 2048, 1024000000000, 2000500000⟩] := by
  decide

/-! ### DESCR -/

/-- S4a and V6 (reserved mode 3 uses the four-tap mapping). -/
theorem test_descr_four_tap :
    image .descr 16 (framed .pccd4824 4 4 0 [3, 2, 1, 0, 7, 6, 5, 4, 11, 10, 9, 8, 15, 14, 13, 12]) =
        some ([1, 5, 4, 0, 9, 13, 12, 8, 10, 14, 15, 11, 2, 6, 7, 3], ⟨4, 4⟩, 0) ∧
      image .descr 4 (framed .pccd4824 2 2 6 [10, 11, 12, 13]) =
        some ([12, 13, 11, 10], ⟨2, 2⟩, 0) := by decide

/-- V14 and V15. -/
theorem test_descr_streak :
    image .descr 4 (framed .pccd4824 4 2 4
        [200, 201, 202, 203, 204, 205, 206, 207, 208, 209, 210, 211, 212, 213, 214, 215]) =
        some ([202, 203, 201, 200], ⟨1, 4⟩, 0) ∧
      image .descr 8 (framed .pccd170170 4 5 4 ((List.range 32).map (BitVec.ofNat 16))) =
        some ([2, 3, 1, 0, 18, 19, 17, 16], ⟨2, 4⟩, 0) := by decide

/-- V9: no table is loaded; nothing but the response changes. -/
theorem test_descrLin_no_table : answered (exec .descrLin State.reset) = some { State.reset with
    sent := [[0x00350203, 0, 0x00040000, 0, 0, 0, 0, 0, 0, 0]] } := by decide

/-- The table of V8, as far as the samples 0 to 3 of each sector read it. -/
def shortTable : List Host.Cell :=
  [0, 1, 2, 3].flatMap fun n => cellsOfTable (n * 65536)
    ((List.range 4).map fun v => BitVec.ofNat 16 (65535 - v + n))

/-- The curves of V8 on the frame of V1 with samples 0 to 3: sector 0 gets 65535 - 2, sector 1
65535 - 3 + 1, sector 2 65535 - 1 + 2 (cut to 16 bits), sector 3 65535 + 3 (cut to 16 bits). -/
theorem test_descrLin_table :
    image .descrLin 4 { framed .pccd4824 2 2 0 [0, 1, 2, 3] with lut := shortTable, lutLoaded := true } =
      some ([65533, 65533, 0, 2], ⟨2, 2⟩, 0) := by decide

/-! ### Witnesses: the hypotheses of a statement can be met, each clause at a boundary of its range -/

theorem witness_FloorDivisionLaw : (0 : Int) < 1 ∧ (-1 : Int) * 2 ≤ -1 ∧ (0 : Int) ≤ 0 := by decide

theorem witness_RoundDivisionNearestTiesAway :
    (0 : Int) < 2 ∧ 2 * |roundDiv 5 2 * 2 - 5| = 2 ∧ 2 * |roundDiv (-1) 2 * 2 - -1| = 2 := by decide

theorem witness_MasksFillTheirField : 0 + 32 ≤ 32 ∧ 31 + 1 ≤ 32 ∧ 31 < 32 ∧ 0 + 0 ≤ 32 := by decide

theorem witness_DecodeOfEncode :
    (Instr.cfgseqSubimage (List.replicate 8 (-1))).wellFormed = true ∧
      (Instr.cfgseqOneshot [0]).wellFormed = true := by decide

theorem witness_EncodeOfDecode :
    decode [0x01000001, 0xFFFFFFFF, 0x06000000] = .ok (.rdreg 0xFFFFFFFF) := rfl

/-- One header for each clause: the opcodes 0, 7 and 255, the reserved bits, the lengths, an unknown type. -/
theorem witness_IllegalHeadersAnsweredInOrder :
    [0x00000000, 0x07000000, 0xFF000000, 0x01000100, 0x04010000, 0x06020000, 0x01000000, 0x04000001,
      0x05010000, 0x050A0000, 0x06010000].map
        (fun h => (send [h] State.reset).pendingWords == [h] && decide ((h : Word).toNat % 256 ≤ 1)) =
      List.replicate 11 true := by decide

theorem witness_UnknownSequenceTypeFails : paramCountOk [0] ∧ (0 : Byte).toNat = 0 ∧
    10 ≤ (0x0A : Byte).toNat ∧
    (send [0x050A0002, 0, 0] State.reset).pendingWords = encodeSequence 0x0A [0] ++ [] := by decide

theorem witness_StepRunsDecodedCommand :
    decode (send [0x06000000] State.reset).pendingWords = .ok .descr := rfl

theorem witness_SentFrameRunsNext :
    (Instr.cfgseqGeometrical (List.replicate 8 5)).wellFormed = true ∧ Instr.descr.wellFormed = true := by
  decide

theorem witness_UnfinishedFrameWaits :
    (send [0x01000001] State.reset).input = [0x01000001].map HostEvent.word ∧
      decode (State.reset.rx ++ [0x01000001]) = .error .incomplete := ⟨rfl, rfl⟩

/-- The first and the last mapped address, and those next to them. -/
theorem witness_RdregReadsOrReportsUnmapped :
    (100000 ≤ (100000 : Word).toNat ∧ (100008 : Word).toNat < 100000 + State.reset.cfg.nregs) ∧
      (99999 : Word).toNat < State.reset.cfg.dhBase ∧
      State.reset.cfg.dhBase + State.reset.cfg.nregs ≤ (100009 : Word).toNat := by decide

/-- Register 3 takes 1 to 65535, register 7 is read-only, register 8 wants a power of two. -/
theorem witness_WrregChecksThenStores :
    (descriptor reference 3).readOnly = false ∧ (descriptor reference 3).minimum = 1 ∧
      (descriptor reference 3).maximum = 65535 ∧ (descriptor reference 7).readOnly = true ∧
      (descriptor reference 8).readOnly = false ∧ (descriptor reference 8).powerOfTwo = true ∧
      (descriptor reference 8).minimum ≤ 127 ∧ 127 ≤ (descriptor reference 8).maximum ∧
      isPow2 127 = false ∧ isPow2 128 = true ∧ (descriptor reference 8).maximum = 128 ∧
      ¬(100009 : Word).toNat < 100000 + reference.nregs := by decide

theorem witness_WriteThenReadReturnsValue : State.reset.regs.length = State.reset.cfg.nregs ∧
    (descriptor State.reset.cfg 8).readOnly = false ∧
    (descriptor State.reset.cfg 8).minimum ≤ (128 : Word).toNat ∧
    (128 : Word).toNat ≤ (descriptor State.reset.cfg 8).maximum ∧ (128 : Word).toNat = 2 ^ 7 := by decide

/-- The ids 200000 and 200009, those next to them, and a field a model lacks. -/
theorem witness_GetpsUnpacksField :
    (reference.layout[(200000 : Word).toNat - 200000]?).join = some ⟨0, 1⟩ ∧
      (reference.layout[(200009 : Word).toNat - 200000]?).join = some ⟨10, 1⟩ ∧
      (199999 : Word).toNat < reference.dhPseudoBase ∧
      reference.dhPseudoBase + 9 < (200010 : Word).toNat ∧
      ((Config.referenceLayout.set 9 none)[(200009 : Word).toNat - 200000]?).join = none := by decide

theorem witness_SetpsPacksField :
    (reference.layout[(200001 : Word).toNat - 200000]?).join = some ⟨1, 2⟩ ∧
      reference.dhPseudoBase ≤ (200001 : Word).toNat ∧
      (199999 : Word).toNat < reference.dhPseudoBase := by decide

theorem witness_SetpsRoundTripAndIsolation : legal State.reset.cfg = true ∧
    0 < State.reset.regs.length ∧ decodeId State.reset.cfg 200001 = .ok ⟨1, 2⟩ ∧
    (answered (exec (.setps 200001 3) State.reset)).isSome = true ∧
    (200002 : Word) ≠ 200001 ∧ decodeId State.reset.cfg 200002 = .ok ⟨3, 1⟩ := by
  refine ⟨by decide, by decide, rfl, rfl, by decide, rfl⟩

theorem witness_FrameCountIsChecked :
    (0 : Int) < (descriptor reference 1).minimum ∧ ((descriptor reference 1).minimum : Int) ≤ 1 ∧
      (65535 : Int) ≤ (descriptor reference 1).maximum ∧
      ((descriptor reference 1).maximum : Int) < 65536 := by decide

theorem witness_ExposureStepsAreFloored :
    (-1 : Int) < 0 ∧ (descriptor reference 2).minimum ≤ floorDiv 0 reference.stepSize ∧
      floorDiv 4294967295999999 reference.stepSize ≤ (descriptor reference 2).maximum ∧
      (descriptor reference 2).maximum < floorDiv 4294967296000000 reference.stepSize := by decide

theorem witness_GapStepsAreBounded :
    floorDiv 999999 reference.stepSize < 1 ∧ 1 ≤ floorDiv 1000000 reference.stepSize ∧
      floorDiv 65535999999 reference.stepSize ≤ reference.gapStepsMax ∧
      (reference.gapStepsMax : Int) < floorDiv 65536000000 reference.stepSize := by decide

theorem witness_OneshotProgramsExposure :
    7 ≤ State.reset.regs.length ∧ (descriptor reference 1).minimum ≤ 1 ∧
      1 ≤ (descriptor reference 1).maximum ∧ 0 ≤ param [0] 0 ∧
      (descriptor reference 2).minimum ≤ floorDiv (param [0] 0) reference.stepSize ∧
      floorDiv (param [4294967295999999] 0) reference.stepSize ≤ (descriptor reference 2).maximum := by
  decide

theorem witness_ContinuousFixesGap :
    7 ≤ State.reset.regs.length ∧ (descriptor reference 1).minimum ≤ 1 ∧
      1 ≤ (descriptor reference 1).maximum ∧ 0 ≤ param [0] 0 ∧
      (descriptor reference 2).minimum ≤ floorDiv (param [0] 0) reference.stepSize ∧
      floorDiv (param [4294967295999999] 0) reference.stepSize ≤ (descriptor reference 2).maximum := by
  decide

/-- Two frames with a gap of exactly one step, and one frame with a gap time below zero. -/
theorem witness_MultiframeFamilyProgramsGap :
    (descriptor reference 1).minimum ≤ roundQ reference (param [500000000, 10000000, 0] 0) ∧
      roundQ reference (param [500000000, 10000000, 0] 0) = 1 ∧
      roundQ reference (param [65535499999999, 10000000, 16000000] 0) ≤
        (descriptor reference 1).maximum ∧
      (1 < roundQ reference (param [65535499999999, 10000000, 16000000] 0) ∧
        floorDiv (16000000 - 10000000 - slow.readoutTime.toInt) reference.stepSize = 1) ∧
      floorDiv 10000000 reference.stepSize ≤ (descriptor reference 2).maximum := by decide

theorem witness_BulbSetsDurationTrigger :
    roundQ reference (param [1499999999, 0] 0) = 1 ∧ roundQ reference (param [500000000, 0] 0) = 1 ∧
      0 ≤ param [500000000, 0] 1 ∧
      (descriptor reference 2).minimum ≤ floorDiv (param [500000000, 0] 1) reference.stepSize := by
  decide

theorem witness_StreakSavesAndHalvesLines :
    (descriptor reference 4).minimum ≤ floorDiv (param [2000000000, 2000000, 3000000] 0) reference.qDenom ∧
      floorDiv (param [65535900000000, 2000000, 3000000] 0) reference.qDenom ≤
        (descriptor reference 4).maximum ∧
      floorDiv (param [2000000000, 2000000, 3000000] 2 - param [2000000000, 2000000, 3000000] 1)
        reference.stepSize = 1 ∧
      floorDiv (65537999999 - 2000000) reference.stepSize = reference.gapStepsMax := by decide

theorem witness_SubimageProgramsCounts :
    roundDiv (2048000000000 * 1000000000) (reference.qDenom * reference.qDenom) ≤
        reference.subimageLinesMax ∧
      floorDiv 2048000000000 (2 * reference.qDenom) ≤ (descriptor reference 5).maximum ∧
      (descriptor reference 6).minimum ≤ floorDiv 1000000000 reference.qDenom ∧
      (descriptor reference 5).minimum ≤ floorDiv 2000000000 (2 * reference.qDenom) ∧
      floorDiv (11000000 - 10000000) reference.stepSize = 1 := by decide

/-- A configuration whose frame register takes 2 to 65535 only, and one where it takes 0 only. -/
def fewFrames (minimum maximum : Nat) : State :=
  State.resetOf { reference with
    desc := reference.desc.set 1 ⟨.framesPerSequence, minimum, minimum, maximum, false, false⟩ }

/-- Each check of the frame-based types is the first to fail of some command, and some command passes. -/
theorem witness_FrameBasedErrorsInOrder :
    [(.cfgseqMultiframe [1, 2], 31), (.cfgseqBulb [2000000000, 100000000], 32),
      (.cfgseqMultiframe [499999999, 10000000, 20000000], 33),
      (.cfgseqMultiframe [65535500000000, 10000000, 20000000], 34), (.cfgseqOneshot [-1], 35),
      (.cfgseqOneshot [4294967296000000], 36),
      (.cfgseqCircular [2000000000, 10000000, 14999999], 37),
      (.cfgseqStrobe [2000000000, 10000000, 15999999], 38),
      (.cfgseqGeometrical [2000000000, 10000000, 65551000000], 39),
      (.cfgseqMultiframe [2000000000, 10000000, 65550999999], 0)].map
        (fun p => ((frameRequest reference p.1).isSome, causeOf p.1 slow == some p.2)) =
      List.replicate 10 (true, true) := by decide

/-- Each check of the streak-camera branch is the first to fail of some command, and one passes. -/
theorem witness_StreakErrorsInOrder :
    [([1, 2], 31), ([1999999999, 2000000, 3000000], 40), ([65536000000000, 2000000, 3000000], 40),
      ([2000000000, -1, 3000000], 35), ([2000000000, 4294967296000000, 0], 36),
      ([2000000000, 2000000, 1999999], 37), ([2000000000, 2000000, 2999999], 38),
      ([2000000000, 2000000, 65538000000], 39), ([2000000000, 2000000, 3000000], 0)].map
        (fun p => causeOf (.cfgseqStreak p.1) slow == some p.2) = List.replicate 9 true ∧
      causeOf (.cfgseqStreak [0, 0, 0]) (fewFrames 2 65535) = some 33 ∧
      causeOf (.cfgseqStreak [0, 0, 0]) (fewFrames 0 0) = some 34 := by decide

/-- Each check of the sub-image branch is the first to fail of some command, and one passes. -/
theorem witness_SubimageErrorsInOrder :
    [([1, 2, 3], 31), ([-1, 0, 0, 0], 42), ([0, -1, 0, 0], 42), ([2049000000000, 1000000000, 0, 0], 41),
      ([1999999999, 1000000000, 0, 0], 43), ([2050000000000, 999000000, 0, 0], 43),
      ([2000000000, 999999999, 0, 0], 44),
      ([2000000000, 1000000000, -1, 0], 35), ([2000000000, 1000000000, 4294967296000000, 0], 36),
      ([2000000000, 1000000000, 1000000, 999999], 37), ([2000000000, 1000000000, 0, 999999], 38),
      ([2000000000, 1000000000, 0, 65536000000], 39), ([2000000000, 1000000000, 0, 1000000], 0)].map
        (fun p => causeOf (.cfgseqSubimage p.1) slow == some p.2) = List.replicate 13 true ∧
      causeOf (.cfgseqSubimage [0, 0, 0, 0]) (fewFrames 2 65535) = some 33 ∧
      causeOf (.cfgseqSubimage [0, 0, 0, 0]) (fewFrames 0 0) = some 34 := by decide

/-- A state in streak-camera mode, entered from reset. -/
def streaking : State :=
  { State.reset with regs := [4, 1, 2, 3, 6, 1, 1, 0x4824, 1], geom := ⟨4, 3, 1, 1⟩ }

/-- A command of each kind completes in streak-camera mode, and one fails. -/
theorem witness_ReadoutModeMachine :
    legal streaking.cfg = true ∧ 7 ≤ streaking.regs.length ∧ streaking.mode = 2 ∧
      [.cfgseqOneshot [0], .cfgseqStreak [2000000000, 0, 1000000],
        .cfgseqSubimage [2000000000, 1000000000, 0, 1000000], .cfgseqOneshot [-1]].map
          (fun i => (isSequence i, causeOf i streaking)) =
        [(true, some 0), (true, some 0), (true, some 0), (true, some 35)] := by
  refine ⟨by decide, by decide, by decide, by decide +kernel⟩

/-- Entering streak-camera mode, staying in it, and leaving it, three commands that complete. -/
theorem witness_StreakRoundTripRestoresGeometry :
    legal State.reset.cfg = true ∧ State.reset.mode ≠ streakCamera ∧ isFrameBased (.cfgseqOneshot [0]) = true ∧
      (((answered (exec (.cfgseqStreak [6000000000, 2000000, 5000000]) State.reset)).bind fun t =>
        (answered (exec (.cfgseqStreak [9900000000, 2000000, 5000000]) t)).bind fun u =>
          (answered (exec (.cfgseqOneshot [0]) u)).map fun w =>
            (w.sent.map responseStatus, w.geom)) = some ([0, 0, 0], State.reset.geom)) := by
  refine ⟨by decide, by decide, by decide, by decide +kernel⟩

theorem witness_CfgseqFrame : isSequence (.cfgseqBulb [0, 0]) = true ∧
    (∃ t, exec (.cfgseqBulb [1000000000, 0]) State.reset = .next t) ∧ legal State.reset.cfg = true :=
  ⟨rfl, ⟨_, rfl⟩, by decide⟩

/-- The largest frame the reference memories hold, 8 by 8. -/
theorem witness_DescrWritesFourTapImage :
    legal (framed .pccd4824 8 8 0 []).cfg = true ∧ (framed .pccd4824 8 8 0 []).mode ≠ streakCamera ∧
      (framed .pccd4824 8 8 0 []).geom.framesizeH.toInt = 8 ∧ 8 * 8 ≤ reference.rawLen ∧
      8 * 8 ≤ reference.imgLen ∧ 0 < 8 / 2 := by
  refine ⟨by decide, by decide, by decide, by decide, by decide, by decide⟩

theorem witness_DescrLinWritesLinearisedImage :
    legal { framed .pccd4824 2 2 0 [] with lutLoaded := true }.cfg = true ∧
      { framed .pccd4824 2 2 0 [] with lutLoaded := true }.mode ≠ streakCamera ∧
      { framed .pccd4824 2 2 0 [] with lutLoaded := true }.lutLoaded = true ∧
      2 * 2 ≤ reference.rawLen ∧ 2 * 2 ≤ reference.imgLen := by
  refine ⟨by decide, by decide, rfl, by decide, by decide⟩

/-- A frame of one line (an image of no rows) and the largest one the reference memories hold. -/
theorem witness_DescrWritesStreakImage :
    (framed .pccd4824 4 1 4 []).mode = streakCamera ∧
      (framed .pccd4824 4 1 4 []).cfg.modelId ≠ .pccd16080 ∧
      (framed .pccd4824 4 1 4 []).geom.framesizeV.toInt = 1 ∧ 1 / 2 * 4 * 4 ≤ reference.rawLen ∧
      (framed .pccd170170 8 5 4 []).mode = streakCamera ∧ 5 / 2 * 4 * 8 = reference.rawLen ∧
      5 / 2 * 8 ≤ reference.imgLen ∧ 8 % 4 = 0 := by decide

theorem witness_FourTapMappingIsBijection : 6 % 2 = 0 ∧ 4 % 2 = 0 ∧ 0 % 2 = 0 := by decide

theorem witness_StreakMappingTilesLines : 8 % 4 = 0 ∧ 0 < 3 / 2 ∧ 0 < (streakMoves 8 3).length := by
  decide

/-- Each check of `DESCR` is the first to fail of some command, and one passes. -/
theorem witness_DescrErrorsInOrder :
    [(causeOf .descr (framed .pccd16080 4 4 0 []), 50), (causeOf .descrLin (framed .pccd4824 4 4 4 []), 50),
      (causeOf .descr (framed .pccd170170 4 4 0 []), 50), (causeOf .descrLin (framed .pccd4824 0 0 0 []), 53),
      (causeOf .descr (framed .pccd4824 5 4 0 []), 51), (causeOf .descr (framed .pccd4824 4 0 0 []), 51),
      (causeOf .descr (framed .pccd4824 6 4 4 []), 51), (causeOf .descr (framed .pccd4824 16 8 0 []), 52),
      (causeOf .descr (framed .pccd4824 8 6 4 []), 52), (causeOf .descr (framed .pccd4824 4 1 4 []), 0)].map
        (fun p => p.1 == some p.2) = List.replicate 10 true := by decide

theorem witness_DescrFrame :
    (∃ t, exec (descrOf false) (framed .pccd4824 2 2 0 []) = .next t) ∧
      ∀ m ∈ imageMoves (framed .pccd4824 2 2 0 []), 8 ≠ 2 * m.dst ∧ 8 ≠ 2 * m.dst + 1 :=
  ⟨⟨_, rfl⟩, by decide⟩

/-- A block with a table loaded. -/
def tableBlock (l : List Sample) : State :=
  { framed .pccd4824 2 2 0 [] with lut := cellsOfTable 0 l, lutLoaded := true }

theorem tableBlock_entry (l : List Sample) (n : Nat) (hn : n < l.length) :
    (tableBlock l).lutEntry n = l.getD n 0 := by
  have h := readSample_cellsOfTable l 0 n .lut (tableBlock l).epoch hn
  rwa [Nat.zero_add] at h

theorem tableBlock_descramble (l : List Sample) (lin : Bool) : descramble (tableBlock l) lin =
    .ok (storeImage (tableBlock l) lin (fullFrameMoves 2 2 2) 2 2) := by
  have hm : (tableBlock l).mode ≠ streakCamera := by
    change modeOf reference 0 ≠ streakCamera
    decide
  have hc : checkFullFrame reference 2 2 = .ok () := rfl
  exact (descramble_ok _ _ _).mpr ⟨by cases lin <;> rfl, .inl ⟨rfl, hm, hc, rfl⟩⟩

/-- Both forms of `DESCR` complete on a block with a table, whatever the table. -/
theorem tableBlock_completes (l : List Sample) :
    (∃ t, exec .descr (tableBlock l) = .next t) ∧
      ∃ u, exec .descrLin (tableBlock l) = .next u ∧ completedOk (tableBlock l) u := by
  refine ⟨⟨_, by rw [exec, execDescr, tableBlock_descramble, finish]⟩, _,
    by rw [exec, execDescrLin, tableBlock_descramble, finish], okResponse .pccd4824 0, rfl, by decide⟩

/-- The identity table. -/
def identityTable : List Sample := (List.range 262144).map (BitVec.ofNat 16)

theorem witness_IdentityTableMakesPlainImage :
    (∀ n v, n < 4 → v < 65536 →
      (tableBlock identityTable).lutEntry (n * 65536 + v) = BitVec.ofNat 16 v) ∧
      (∃ t, exec .descr (tableBlock identityTable) = .next t) ∧
      ∃ u, exec .descrLin (tableBlock identityTable) = .next u ∧
        completedOk (tableBlock identityTable) u := by
  refine ⟨fun n v hn hv => ?_, tableBlock_completes identityTable⟩
  have hx : n * 65536 + v < 262144 := by omega
  have hl : identityTable.length = 262144 := by rw [identityTable, List.length_map, List.length_range]
  rw [tableBlock_entry identityTable _ (by omega), identityTable, List.getD_eq_getElem?_getD,
    List.getElem?_map, List.getElem?_range hx]
  apply BitVec.eq_of_toNat_eq
  simp only [Option.map_some, Option.getD_some, BitVec.toNat_ofNat]
  omega

theorem witness_FailedCommandChangesNothing :
    ∃ t, exec (.rdreg 0) State.reset = .next t ∧ ¬completedOk State.reset t := by
  refine ⟨_, rfl, ?_⟩
  rintro ⟨r, h, hr⟩
  rw [← (List.cons.inj h).1] at hr
  exact absurd hr (by decide)

theorem witness_StepKeepsConfiguration : ∃ t, step (send [0x06000000] State.reset) = .next t := ⟨_, rfl⟩

/-- The state after reset meets every invariant, and it steps; so does one with a table loaded. -/
theorem witness_StepKeepsRegistersLegal : registersLegal State.reset ∧ legal State.reset.cfg = true ∧
    ∃ t, step (send [0x02000002, 100003, 65535] State.reset) = .next t := by
  refine ⟨?_, by decide, _, rfl⟩
  unfold registersLegal registerOk
  decide

theorem witness_StepKeepsMemoriesCanonical : memoriesCanonical (framed .pccd4824 8 8 0 [1, 2]) ∧
    ∃ t, step { framed .pccd4824 8 8 0 [1, 2] with input := [.loadRaw 63 5] } = .next t := by
  refine ⟨?_, _, rfl⟩
  unfold memoriesCanonical
  decide

theorem witness_StepKeepsGeometryStable : geometryStable streaking ∧
    ∃ t, step { streaking with input := [.reset] } = .next t := by
  refine ⟨?_, _, rfl⟩
  unfold geometryStable
  decide

/-- A block whose configuration gives the table two entries, and which has loaded them. -/
def smallTable : State :=
  { State.resetOf { reference with lutLen := 2 } with lut := cellsOfTable 0 [7, 8], lutLoaded := true }

theorem witness_StepKeepsTimeAndTable :
    readoutTimeNonneg State.reset ∧ lutWhole State.reset ∧ legal State.reset.cfg = true ∧
      (∃ t, step { State.reset with input := [.setReadoutTime 0] } = .next t) ∧
      smallTable.lutLoaded = true ∧ lutWhole smallTable := by
  refine ⟨?_, ?_, by decide, ⟨_, rfl⟩, rfl, ?_⟩
  · unfold readoutTimeNonneg; decide
  · intro h; cases h
  · intro _; decide

theorem witness_StepKeepsPortsWhole : frameUnfinished { State.reset with rx := [0x01000001] } ∧
    responsesWhole { State.reset with sent := [okResponse .pccd4824 0] } ∧
    ∃ t, step { State.reset with rx := [0x01000001], input := [.word 100000] } = .next t := by
  refine ⟨rfl, ?_, _, rfl⟩
  unfold responsesWhole responseWhole
  decide

theorem witness_ResetMeetsInvariants : legal (Config.reference .pccd170170) = true := by decide

theorem witness_ResetValues : 9 < (Config.reference .pccd170170).nregs ∧
    layoutField reference (pseudoIndex .overExposureWarning) = some ⟨10, 1⟩ := by decide

theorem witness_ResetDiscardsPartialFrame :
    { State.reset with rx := [0x01000001], input := [.reset] }.input = [.reset] ∧
      frameUnfinished { State.reset with rx := [0x01000001], input := [.reset] } := ⟨rfl, rfl⟩

theorem witness_LoadRawWritesOneSample : 63 < State.reset.cfg.rawLen ∧
    frameUnfinished { State.reset with input := [.loadRaw 63 5] } := ⟨by decide, rfl⟩

/-- A table of the right length with no table loaded, and a second load. -/
theorem witness_LutLoadsOnce :
    ([7, 8] : List Sample).length = { smallTable with lutLoaded := false }.cfg.lutLen ∧
      frameUnfinished { smallTable with input := [.loadLut [7, 8]] } ∧ smallTable.lutLoaded = true :=
  ⟨rfl, rfl, rfl⟩

theorem witness_LoadedTableIsImmutable : smallTable.lutLoaded = true ∧
    (∃ t, step smallTable = .next t) ∧ ∃ t, step { smallTable with input := [.reset] } = .next t :=
  ⟨rfl, ⟨_, rfl⟩, _, rfl⟩

theorem witness_EnvironmentMovesAsTabled :
    (∃ t, environmentMove (.readImage 63) State.reset = .next t) ∧
      (∃ t, environmentMove .readMeta State.reset = .next t) ∧
      (∃ t, environmentMove (.setReadoutTime 0) State.reset = .next t) ∧
      HostEvent.readMeta ≠ .reset :=
  ⟨⟨_, rfl⟩, ⟨_, rfl⟩, ⟨_, rfl⟩, by decide⟩

theorem witness_MovesNotAllowedStop : State.reset.cfg.rawLen ≤ 64 ∧ State.reset.cfg.imgLen ≤ 64 ∧
    ([] : List Sample).length ≠ State.reset.cfg.lutLen ∧ (-1 : S64).toInt < 0 ∧
    legal { reference with stepSize := 0 } = false ∧ legal reference = true := by
  refine ⟨by decide, by decide, by decide, by decide, by decide, by decide +kernel⟩

end Sys2Proof.Tests
end

