-- ==== Sys2Proof/Proofs/Arith.lean ====
section
/-!
PROOFS. The arithmetic of `00_scope.md` R10 to R13: one layer of facts about each function of
`Machine/Arith.lean`, and from it the four statements.
-/

namespace Sys2Proof.Machine

/-! ### Floor division (R10) -/

/-- What `floorDiv` is: the greatest `n` with `n * b ≤ a`. The bounds below are read off it. -/
theorem le_floorDiv_iff {a b n : Int} (hb : 0 < b) : n ≤ floorDiv a b ↔ n * b ≤ a :=
  Int.le_ediv_iff_mul_le hb

theorem floorDiv_mul_le (a : Int) {b : Int} (hb : 0 < b) : floorDiv a b * b ≤ a :=
  (le_floorDiv_iff hb).1 le_rfl

theorem lt_floorDiv_add_one_mul (a : Int) {b : Int} (hb : 0 < b) : a < (floorDiv a b + 1) * b := by
  by_contra hle
  have : floorDiv a b + 1 ≤ floorDiv a b := (le_floorDiv_iff hb).2 (not_lt.1 hle)
  omega

/-- On values that are not negative `floorDiv` discards the remainder. -/
theorem floorDiv_eq_natDiv {a b : Int} (ha : 0 ≤ a) (hb : 0 < b) :
    floorDiv a b = ((a.toNat / b.toNat : Nat) : Int) := by
  rw [Int.natCast_ediv, Int.toNat_of_nonneg ha, Int.toNat_of_nonneg hb.le, floorDiv]

/-- Settles O1, from the characterisation of `floorDiv` as a greatest quotient. -/
theorem floorDivisionLaw : Obligations.FloorDivisionLaw := by
  intro a b hb
  exact ⟨floorDiv_mul_le a hb, lt_floorDiv_add_one_mul a hb, fun _ => (le_floorDiv_iff hb).2,
    fun ha => floorDiv_eq_natDiv ha hb⟩

/-! ### Rounding division (R11) -/

theorem roundDiv_of_nonneg {a : Int} (b : Int) (ha : 0 ≤ a) :
    roundDiv a b = floorDiv (2 * a + b) (2 * b) := if_pos ha

theorem roundDiv_of_neg {a : Int} (b : Int) (ha : a < 0) :
    roundDiv a b = -floorDiv (2 * -a + b) (2 * b) := if_neg (not_le.2 ha)

/-- Rounding commutes with the change of sign, so that each fact about it is proved for `0 ≤ a`. -/
theorem roundDiv_eq_neg_of_neg {a : Int} (b : Int) (ha : a < 0) :
    roundDiv a b = -roundDiv (-a) b := by
  rw [roundDiv_of_neg b ha, roundDiv_of_nonneg b (neg_nonneg.2 ha.le)]

/-- For `0 ≤ a` the rounded multiple lies in the half-open interval `(a - b/2, a + b/2]`: only its
upper end is a tie, hence ties go up. -/
theorem roundDiv_bracket_of_nonneg {a b : Int} (ha : 0 ≤ a) (hb : 0 < b) :
    2 * (roundDiv a b * b) ≤ 2 * a + b ∧ 2 * a < 2 * (roundDiv a b * b) + b := by
  have hlow := floorDiv_mul_le (2 * a + b) (b := 2 * b) (by omega)
  have hhigh := lt_floorDiv_add_one_mul (2 * a + b) (b := 2 * b) (by omega)
  rw [← roundDiv_of_nonneg b ha] at hlow hhigh
  constructor <;> linarith

theorem roundDiv_nearest_of_nonneg {a b : Int} (ha : 0 ≤ a) (hb : 0 < b) :
    2 * |roundDiv a b * b - a| ≤ b ∧
      (2 * |roundDiv a b * b - a| = b → |a| < |roundDiv a b * b|) := by
  obtain ⟨hlow, hhigh⟩ := roundDiv_bracket_of_nonneg ha hb
  generalize roundDiv a b * b = m at hlow hhigh
  rw [abs_of_nonneg ha]
  rcases abs_cases (m - a) with ⟨habs, _⟩ | ⟨habs, _⟩
  · have := le_abs_self m
    omega
  · omega

theorem roundDiv_nearest (a : Int) {b : Int} (hb : 0 < b) :
    2 * |roundDiv a b * b - a| ≤ b ∧
      (2 * |roundDiv a b * b - a| = b → |a| < |roundDiv a b * b|) := by
  rcases le_or_gt 0 a with ha | ha
  · exact roundDiv_nearest_of_nonneg ha hb
  · have hmirror : roundDiv a b * b - a = -(roundDiv (-a) b * b - -a) := by
      rw [roundDiv_eq_neg_of_neg b ha]; ring
    have hsize : |roundDiv a b * b| = |roundDiv (-a) b * b| := by
      rw [roundDiv_eq_neg_of_neg b ha, neg_mul, abs_neg]
    rw [hmirror, hsize, abs_neg, ← abs_neg a]
    exact roundDiv_nearest_of_nonneg (neg_nonneg.2 ha.le) hb

/-- Settles O2: the interval around `a ≥ 0` is half-open, and a negative `a` is its mirror image. -/
theorem roundDivisionNearestTiesAway : Obligations.RoundDivisionNearestTiesAway := by
  refine ⟨fun a b hb => ?_, fun c p => ⟨rfl, rfl⟩⟩
  obtain ⟨hnear, htie⟩ := roundDiv_nearest a hb
  exact ⟨hnear, htie, roundDiv_of_nonneg b, roundDiv_of_neg b⟩

/-! ### The power-of-two test (R12) -/

theorem isPow2_iff_and_sub_one (v : Word) : isPow2 v = true ↔ v ≠ 0 ∧ v &&& (v - 1) = 0 := by
  simp [isPow2]

/-- On a word other than 0 the decrement does not wrap, so the bit test is that of `Nat`. -/
theorem and_sub_one_eq_zero_iff_toNat {v : Word} (hv : v ≠ 0) :
    v &&& (v - 1) = 0 ↔ v.toNat &&& (v.toNat - 1) = 0 := by
  have hpos : (1 : Word) ≤ v := by bv_omega
  rw [BitVec.toNat_eq, BitVec.toNat_and, BitVec.toNat_sub_of_le hpos]
  rfl

theorem isPow2_iff_isPowerOfTwo (v : Word) : isPow2 v = true ↔ v.toNat.isPowerOfTwo := by
  rw [isPow2_iff_and_sub_one]
  by_cases hv : v = 0
  · have hzero : ¬Nat.isPowerOfTwo 0 := fun ⟨e, he⟩ => absurd he.symm (Nat.two_pow_pos e).ne'
    simp [hv, hzero]
  · have hnat : v.toNat ≠ 0 := by bv_omega
    rw [and_sub_one_eq_zero_iff_toNat hv, Nat.and_sub_one_eq_zero_iff_isPowerOfTwo hnat]
    exact and_iff_right hv

/-- The exponent is below the word's width because the word is. -/
theorem isPow2_iff_exists_exponent (v : Word) :
    isPow2 v = true ↔ ∃ e, e < 32 ∧ v.toNat = 2 ^ e := by
  rw [isPow2_iff_isPowerOfTwo]
  constructor
  · rintro ⟨e, he⟩
    have hlt : 2 ^ e < 2 ^ 32 := he ▸ v.isLt
    exact ⟨e, (Nat.pow_lt_pow_iff_right one_lt_two).1 hlt, he⟩
  · rintro ⟨e, -, he⟩
    exact ⟨e, he⟩

/-- Settles O3, through the same test on `Nat`. -/
theorem powerOfTwoTest : Obligations.PowerOfTwoTest := fun v =>
  ⟨isPow2_iff_exists_exponent v, isPow2_iff_and_sub_one v, rfl⟩

/-! ### The masks of a field (R13) -/

theorem fieldMask_toNat {wid : Nat} (h : wid ≤ 32) : (fieldMask wid).toNat = 2 ^ wid - 1 := by
  have hle : 2 ^ wid ≤ 2 ^ 32 := Nat.pow_le_pow_right two_pos h
  rw [fieldMask, BitVec.toNat_ofNat, Nat.mod_eq_of_lt (by omega)]

theorem fieldMask_getLsbD (wid i : Nat) :
    (fieldMask wid).getLsbD i = decide (i < 32 ∧ i < wid) := by
  rw [fieldMask, BitVec.getLsbD_ofNat, Nat.testBit_two_pow_sub_one, Bool.decide_and]

/-- No premise on the field: bits shifted out of the word are simply lost. -/
theorem regMask_getLsbD (off wid : Nat) {i : Nat} (hi : i < 32) :
    (regMask off wid).getLsbD i = decide (off ≤ i ∧ i < off + wid) := by
  rw [regMask, BitVec.getLsbD_shiftLeft, fieldMask_getLsbD, Bool.eq_iff_iff]
  simp only [Bool.and_eq_true, Bool.not_eq_true', decide_eq_true_eq, decide_eq_false_iff_not]
  omega

/-- Settles O4, bit by bit through the shift. -/
theorem masksFillTheirField : Obligations.MasksFillTheirField := fun off wid h =>
  ⟨fieldMask_toNat (by omega), rfl, fun _ hi => regMask_getLsbD off wid hi⟩

end Sys2Proof.Machine
end

