-- ==== Sys2Proof/Proofs/ResetValues.lean ====
section
/-!
PROOFS. The state after reset (`10_state.md` R43): what each field of `State.resetOf` holds, what its
registers, mode and pseudo-registers read as, and from these the statement.
-/

namespace Sys2Proof.Machine

/-! ### The fields of `State.resetOf` -/

@[simp] theorem resetOf_cfg (c : Config) : (State.resetOf c).cfg = c := rfl
@[simp] theorem resetOf_regs (c : Config) : (State.resetOf c).regs = resetRegs c := rfl
@[simp] theorem resetOf_geom (c : Config) : (State.resetOf c).geom = resetGeometry c := rfl
@[simp] theorem resetOf_saved (c : Config) : (State.resetOf c).saved = resetGeometry c := rfl
@[simp] theorem resetOf_readoutTime (c : Config) :
    (State.resetOf c).readoutTime = c.resetReadoutTime := rfl
@[simp] theorem resetOf_imgMeta (c : Config) : (State.resetOf c).imgMeta = ⟨0, 0⟩ := rfl
@[simp] theorem resetOf_lutLoaded (c : Config) : (State.resetOf c).lutLoaded = false := rfl
@[simp] theorem resetOf_hdf (c : Config) : (State.resetOf c).hdf = c.hdf := rfl
@[simp] theorem resetOf_vdf (c : Config) : (State.resetOf c).vdf = c.vdf := rfl
@[simp] theorem resetOf_numTaps (c : Config) : (State.resetOf c).numTaps = c.numTaps := rfl

/-! ### What the registers and the control register's fields read as -/

/-- No bound on `k`: beyond `NREGS` the register reads 0, which is also the default of the descriptor
that stands in there. -/
@[simp] theorem reg_resetOf (c : Config) (k : Nat) :
    (State.resetOf c).reg k = BitVec.ofNat 32 (descriptor c k).default := by
  rw [State.reg, resetOf_regs, resetRegs, descriptor,
    ← List.getD_map c.desc _ (fun d => BitVec.ofNat 32 d.default)]
  rfl

/-- R27: a pseudo-register the model has is a slice of the control register. -/
theorem pseudo_eq_some {s : State} {p : PseudoReg} {f : BitField}
    (h : layoutField s.cfg (pseudoIndex p) = some f) :
    s.pseudo p = some (extractField f (s.reg 0)) := by
  rw [State.pseudo, h, Option.map_some]

theorem mode_resetOf (c : Config) :
    (State.resetOf c).mode = modeOf c (BitVec.ofNat 32 (descriptor c 0).default) := by
  rw [State.mode, resetOf_cfg, reg_resetOf]

theorem pseudo_resetOf {c : Config} {p : PseudoReg} {f : BitField}
    (h : layoutField c (pseudoIndex p) = some f) :
    (State.resetOf c).pseudo p =
      some (extractField f (BitVec.ofNat 32 (descriptor c 0).default)) := by
  rw [pseudo_eq_some h, reg_resetOf]

/-- Settles O54: the registers read as their defaults, the mode and the pseudo-registers are read off
register 0, and the other values are fields of `State.resetOf`. -/
theorem resetValues : Obligations.ResetValues := fun c =>
  ⟨fun k _ => reg_resetOf c k, fun _ _ hf _ => pseudo_resetOf hf, fun _ => mode_resetOf c,
    resetOf_geom c, resetOf_saved c, resetOf_hdf c, resetOf_vdf c, resetOf_numTaps c,
    resetOf_readoutTime c, resetOf_imgMeta c, resetOf_lutLoaded c⟩

end Sys2Proof.Machine
end

