-- ==== Sys2Proof/Proofs/IllegalHeaders.lean ====
section
/-!
PROOFS. Illegal headers (`30_encoding.md` R78): the header's fields as numbers, each of the decoder's
three checks as arithmetic on them, what the decoder and the step do with a whole frame that fails one,
and from these the statement.
-/

namespace Sys2Proof

/-! ### The header's fields as numbers (R72) -/

theorem headerOpc_toNat (h : Word) : (headerOpc h).toNat = h.toNat / 2 ^ 24 := by
  rw [headerOpc, BitVec.extractLsb'_toNat, Nat.shiftRight_eq_div_pow]
  have := h.isLt
  omega

theorem headerSub_toNat (h : Word) : (headerSub h).toNat = h.toNat / 2 ^ 16 % 256 := by
  rw [headerSub, BitVec.extractLsb'_toNat, Nat.shiftRight_eq_div_pow]

theorem headerRsv_toNat (h : Word) : (headerRsv h).toNat = h.toNat / 2 ^ 8 % 256 := by
  rw [headerRsv, BitVec.extractLsb'_toNat, Nat.shiftRight_eq_div_pow]

theorem headerNw_eq_mod (h : Word) : headerNw h = h.toNat % 256 := by
  rw [headerNw, BitVec.extractLsb'_toNat, Nat.shiftRight_zero]

/-! ### The three checks (R78) -/

theorem opcodeListed_eq_false_iff (h : Word) :
    opcodeListed h = false ↔ (headerOpc h).toNat = 0 ∨ 7 ≤ (headerOpc h).toNat := by
  simp only [opcodeListed, Bool.and_eq_false_iff, decide_eq_false_iff_not]
  omega

/-- Bits 7:1 of a byte are zero when only bit 0 can be set. -/
theorem extractLsb'_one_seven_eq_zero_iff (b : Byte) : b.extractLsb' 1 7 = 0#7 ↔ b.toNat < 2 := by
  rw [← BitVec.toNat_inj, BitVec.extractLsb'_toNat, Nat.shiftRight_eq_div_pow]
  have := b.isLt
  simp only [BitVec.toNat_zero]
  omega

/-- A listed opcode is one of the six of R75. -/
theorem headerOpc_bounds_of_listed {h : Word} (hl : opcodeListed h ≠ false) :
    1 ≤ (headerOpc h).toNat ∧ (headerOpc h).toNat ≤ 6 := by
  rw [Ne, opcodeListed_eq_false_iff] at hl
  omega

/-- Opcode 5 reserves no bit of `SUB`: that is the sequence type. -/
theorem reservedBitsZero_eq_false_iff {h : Word} (hl : opcodeListed h ≠ false) :
    reservedBitsZero h = false ↔ (headerRsv h).toNat ≠ 0 ∨
      ((headerOpc h).toNat ≤ 4 ∧ (headerSub h).toNat ≠ 0) ∨
      ((headerOpc h).toNat = 6 ∧ 2 ≤ (headerSub h).toNat) := by
  have beq_zero (b : Byte) : (b == 0) = false ↔ b.toNat ≠ 0 := by
    rw [beq_eq_false_iff_ne, Ne, ← BitVec.toNat_inj]
    rfl
  rw [reservedBitsZero, Bool.and_eq_false_iff, beq_zero]
  refine or_congr_right ?_
  obtain ⟨hpos, hle⟩ := headerOpc_bounds_of_listed hl
  interval_cases (headerOpc h).toNat
  iterate 4
    · simp only [beq_zero]
      simp
  · simp
  · simp [extractLsb'_one_seven_eq_zero_iff, Nat.succ_le_iff]

theorem lengthAllowed_eq_false_iff {h : Word} (hl : opcodeListed h ≠ false) :
    lengthAllowed h = false ↔
      (((headerOpc h).toNat = 1 ∨ (headerOpc h).toNat = 3) ∧ headerNw h ≠ 1) ∨
      (((headerOpc h).toNat = 2 ∨ (headerOpc h).toNat = 4) ∧ headerNw h ≠ 2) ∨
      ((headerOpc h).toNat = 5 ∧ ¬(headerNw h % 2 = 0 ∧ 2 ≤ headerNw h ∧ headerNw h ≤ 16)) ∨
      ((headerOpc h).toNat = 6 ∧ headerNw h ≠ 0) := by
  unfold lengthAllowed
  obtain ⟨hpos, hle⟩ := headerOpc_bounds_of_listed hl
  interval_cases (headerOpc h).toNat <;> simp

/-! ### The command of a frame that passes them (R75, R79) -/

/-- R79: only a type that is none of the nine has no command. -/
theorem sequenceOfType_eq_none {t : Byte} {ps : List S64} (h : sequenceOfType t ps = none) :
    t.toNat = 0 ∨ 10 ≤ t.toNat := by
  by_contra! hn
  obtain ⟨hne, hlt⟩ := hn
  have hpos : 1 ≤ t.toNat := Nat.one_le_iff_ne_zero.2 hne
  unfold sequenceOfType at h
  interval_cases t.toNat <;> cases h

theorem commandOf_ok_or_unknown {h : Word} (ops : List Word) (hl : opcodeListed h ≠ false) :
    (∃ i, commandOf h ops = .ok i) ∨
      ((headerOpc h).toNat = 5 ∧ ((headerSub h).toNat = 0 ∨ 10 ≤ (headerSub h).toNat)) := by
  obtain ⟨hpos, hle⟩ := headerOpc_bounds_of_listed hl
  interval_cases ho : (headerOpc h).toNat <;> simp only [commandOf, ho]
  iterate 4
    · exact .inl ⟨_, rfl⟩
  · split
    · exact .inl ⟨_, rfl⟩
    · next hs => exact .inr ⟨trivial, sequenceOfType_eq_none hs⟩
  · split <;> exact .inl ⟨_, rfl⟩

/-! ### The decoder on a whole frame -/

theorem decode_of_whole {h : Word} {rest : List Word} (hn : headerNw h ≤ rest.length) :
    decode (h :: rest) = decodeFrame h (rest.take (headerNw h)) := by
  rw [decode, if_neg (Nat.not_lt.2 hn)]

theorem decodeFrame_badOpcode {h : Word} (ops : List Word) (hl : opcodeListed h = false) :
    decodeFrame h ops = .error .badOpcode := by
  rw [decodeFrame, if_pos hl]

theorem decodeFrame_badReservedBits {h : Word} (ops : List Word) (hl : opcodeListed h ≠ false)
    (hr : reservedBitsZero h = false) : decodeFrame h ops = .error .badReservedBits := by
  rw [decodeFrame, if_neg hl, if_pos hr]

theorem decodeFrame_badLength {h : Word} (ops : List Word) (hl : opcodeListed h ≠ false)
    (hr : reservedBitsZero h ≠ false) (hn : lengthAllowed h = false) :
    decodeFrame h ops = .error .badLength := by
  rw [decodeFrame, if_neg hl, if_neg hr, if_pos hn]

theorem decodeFrame_eq_commandOf {h : Word} (ops : List Word) (hl : opcodeListed h ≠ false)
    (hr : reservedBitsZero h ≠ false) (hn : lengthAllowed h ≠ false) :
    decodeFrame h ops = commandOf h ops := by
  rw [decodeFrame, if_neg hl, if_neg hr, if_neg hn]

namespace Machine

/-- A whole frame the decoder rejects is taken off the command port and answered. -/
theorem step_of_decodeFrame_error {s : State} {h : Word} {rest : List Word} {r : Reject}
    (hp : s.pendingWords = h :: rest) (hn : headerNw h ≤ rest.length) (hr : r ≠ .incomplete)
    (hd : decodeFrame h (rest.take (headerNw h)) = .error r) :
    step s = answerReject h r (s.consume (1 + headerNw h)) := by
  rw [← decode_of_whole hn] at hd
  rw [step, hp, hd]
  cases r with
  | incomplete => exact absurd rfl hr
  | _ => rfl

/-- Settles O8: each condition on the header's number is the failure of one of the decoder's checks,
so the checks decide the case in the decoder's own order. -/
theorem illegalHeadersAnsweredInOrder : Obligations.IllegalHeadersAnsweredInOrder := by
  intro s h rest hp
  simp only [← headerOpc_toNat, ← headerSub_toNat, ← headerRsv_toNat, ← headerNw_eq_mod,
    ← opcodeListed_eq_false_iff]
  intro hn
  refine ⟨fun hl => ?_, fun hl hr => ?_, fun hl hr hb => ?_, fun hl hr hb => ?_, rfl⟩
  · exact step_of_decodeFrame_error hp hn (by decide) (decodeFrame_badOpcode _ hl)
  · rw [← reservedBitsZero_eq_false_iff hl] at hr
    exact step_of_decodeFrame_error hp hn (by decide) (decodeFrame_badReservedBits _ hl hr)
  · rw [← reservedBitsZero_eq_false_iff hl] at hr
    rw [← lengthAllowed_eq_false_iff hl] at hb
    exact step_of_decodeFrame_error hp hn (by decide) (decodeFrame_badLength _ hl hr hb)
  · rw [← reservedBitsZero_eq_false_iff hl] at hr
    rw [← lengthAllowed_eq_false_iff hl] at hb
    rw [hp, decode_of_whole hn, decodeFrame_eq_commandOf _ hl hr hb]
    exact commandOf_ok_or_unknown _ hl

end Machine
end Sys2Proof
end

