-- ==== Sys2Proof/Proofs/RegisterAccess.lean ====
section
/-!
PROOFS. `RDREG` and `WRREG` (`40_register_access.md`): what the address decode and the checks of a
write answer in each case, how each command ends on each answer, and from these the three statements.
-/

namespace Sys2Proof.Machine

/-! ### The address decode (R102) -/

theorem decodeAddress_of_mapped {c : Config} {addr : Word}
    (h : c.dhBase ≤ addr.toNat ∧ addr.toNat < c.dhBase + c.nregs) :
    decodeAddress c addr = .ok (addr.toNat - c.dhBase) :=
  (decodeAddress_ok c addr _).2 ⟨h.1, h.2, rfl⟩

theorem decodeAddress_of_unmapped {c : Config} {addr : Word}
    (h : ¬(c.dhBase ≤ addr.toNat ∧ addr.toNat < c.dhBase + c.nregs)) :
    decodeAddress c addr =
      .error ⟨.addrUnmapped, addr.toNat, c.dhBase, (c.dhBase : Int) + c.nregs - 1, 0⟩ :=
  if_neg h

/-! ### The first check a write fails (R101); `checkWrite_ok` is the case in which it fails none -/

theorem checkWrite_readOnly {d : RegDesc} (addr value : Word) (hr : d.readOnly = true) :
    checkWrite d addr value = .error ⟨.regReadOnly, addr.toNat, value.toNat, 0, 0⟩ :=
  if_pos hr

theorem checkWrite_outOfRange {d : RegDesc} (addr : Word) {value : Word} (hr : d.readOnly = false)
    (hb : ¬(d.minimum ≤ value.toNat ∧ value.toNat ≤ d.maximum)) :
    checkWrite d addr value =
      .error ⟨.valueOutOfRange, addr.toNat, value.toNat, d.minimum, d.maximum⟩ := by
  have hout : value.toNat < d.minimum ∨ d.maximum < value.toNat := by omega
  rw [checkWrite, if_neg (ne_true_of_eq_false hr), if_pos hout]

theorem checkWrite_notPowerOfTwo {d : RegDesc} (addr : Word) {value : Word}
    (hr : d.readOnly = false) (hb : d.minimum ≤ value.toNat ∧ value.toNat ≤ d.maximum)
    (hp : d.powerOfTwo = true) (hv : isPow2 value = false) :
    checkWrite d addr value = .error ⟨.notPowerOfTwo, addr.toNat, value.toNat, 0, 0⟩ := by
  have hin : ¬(value.toNat < d.minimum ∨ d.maximum < value.toNat) := by omega
  rw [checkWrite, if_neg (ne_true_of_eq_false hr), if_neg hin, if_pos ⟨hp, hv⟩]

/-! ### How the two commands end -/

section Commands
variable {s : State} {addr value : Word} {k : Nat} {f : Failure}

theorem exec_rdreg_of_decoded (h : decodeAddress s.cfg addr = .ok k) :
    exec (.rdreg addr) s = .next (s.complete (s.reg k)) := by
  rw [exec, execRdreg, h]
  exact finishRead_ok s _

theorem exec_rdreg_of_decode_error (h : decodeAddress s.cfg addr = .error f) :
    exec (.rdreg addr) s = .next (s.raise f) := by
  rw [exec, execRdreg, h]
  exact finishRead_error s f

theorem exec_wrreg_of_decode_error (h : decodeAddress s.cfg addr = .error f) :
    exec (.wrreg addr value) s = .next (s.raise f) := by
  rw [exec, execWrreg, h]
  exact finish_error s f

/-- At a mapped address the checks alone decide whether the register is written. -/
theorem exec_wrreg_of_decoded (h : decodeAddress s.cfg addr = .ok k) :
    exec (.wrreg addr value) s = finish s
      (checkWrite (descriptor s.cfg k) addr value >>= fun _ => .ok (s.setReg k value)) := by
  rw [exec, execWrreg, h]
  rfl

theorem exec_wrreg_of_check_error (h : decodeAddress s.cfg addr = .ok k)
    (hc : checkWrite (descriptor s.cfg k) addr value = .error f) :
    exec (.wrreg addr value) s = .next (s.raise f) := by
  rw [exec_wrreg_of_decoded h, hc]
  exact finish_error s f

theorem exec_wrreg_of_check_ok (h : decodeAddress s.cfg addr = .ok k)
    (hc : checkWrite (descriptor s.cfg k) addr value = .ok ()) :
    exec (.wrreg addr value) s = .next ((s.setReg k value).complete 0) := by
  rw [exec_wrreg_of_decoded h, hc]
  exact finish_ok s _

end Commands

/-! ### The statements -/

/-- Settles O13: the decode of the address decides how `RDREG` ends. -/
theorem rdregReadsOrReportsUnmapped : Obligations.RdregReadsOrReportsUnmapped := by
  intro s addr
  refine ⟨fun hlo hhi => ?mapped, fun hout => ?unmapped, rfl, rfl⟩
  case mapped => exact exec_rdreg_of_decoded (decodeAddress_of_mapped ⟨hlo, hhi⟩)
  case unmapped => exact exec_rdreg_of_decode_error (decodeAddress_of_unmapped (by omega))

/-- Settles O14: one way for the address decode to fail, three for the checks, and none left. -/
theorem wrregChecksThenStores : Obligations.WrregChecksThenStores := by
  intro s addr value k d mapped inRange report
  refine ⟨fun hm => ?unmapped, fun hm hr => ?readOnly, fun hm hr hb => ?outOfRange,
    fun hm hr hb hp hv => ?notPowerOfTwo, fun hm hr hb hp => ?stores, rfl⟩
  case unmapped => exact exec_wrreg_of_decode_error (decodeAddress_of_unmapped hm)
  case readOnly =>
    exact exec_wrreg_of_check_error (decodeAddress_of_mapped hm) (checkWrite_readOnly addr value hr)
  case outOfRange =>
    exact exec_wrreg_of_check_error (decodeAddress_of_mapped hm) (checkWrite_outOfRange addr hr hb)
  case notPowerOfTwo =>
    exact exec_wrreg_of_check_error (decodeAddress_of_mapped hm)
      (checkWrite_notPowerOfTwo addr hr hb hp hv)
  case stores =>
    exact exec_wrreg_of_check_ok (decodeAddress_of_mapped hm)
      ((checkWrite_ok d addr value).2 ⟨hr, hb.1, hb.2, hp⟩)

/-- Settles O15: the write ends with the register set, the configuration is still the same, so the read
decodes the same offset and finds the value there. -/
theorem writeThenReadReturnsValue : Obligations.WriteThenReadReturnsValue := by
  intro s addr value hlen hlo hhi d hr hmin hmax hpow
  have hdec := decodeAddress_of_mapped ⟨hlo, hhi⟩
  have hpow2 : d.powerOfTwo = true → isPow2 value = true := fun hp =>
    (isPow2_iff_isPowerOfTwo value).2 (hpow hp)
  have hcheck := (checkWrite_ok d addr value).2 ⟨hr, hmin, hmax, hpow2⟩
  have hread : (s.setReg (addr.toNat - s.cfg.dhBase) value).reg (addr.toNat - s.cfg.dhBase) = value :=
    reg_setReg_same s _ value (by omega)
  refine ⟨_, _, exec_wrreg_of_check_ok hdec hcheck, exec_rdreg_of_decoded hdec, ?_, ?_⟩
  · rw [complete_sent, setReg_sent, setReg_cfg]
  · rw [complete_sent, reg_complete, hread, complete_cfg, setReg_cfg]

end Sys2Proof.Machine
end

