-- ==== Sys2Proof/Proofs/PseudoRegister.lean ====
section
/-!
PROOFS. `GETPS` and `SETPS` (`41_pseudo_register.md`): what the extraction and the insertion of a field
do to each bit of a word, how the fields of a legal layout lie, what the id decode answers in each case,
how each command ends on each answer, and from these the three statements.
-/

namespace Sys2Proof.Machine

/-! ### A field of a word, bit by bit (R121, R122) -/

theorem extractField_getLsbD (f : BitField) (w : Word) {i : Nat} (hi : i < 32) :
    (extractField f w).getLsbD i = (w.getLsbD (f.offset + i) && decide (i < f.width)) := by
  rw [extractField, BitVec.getLsbD_and, BitVec.getLsbD_ushiftRight, fieldMask_getLsbD]
  simp [hi]

/-- The mask goes on before the shift, so that no bit of `v` above the field reaches another field. -/
theorem insertField_getLsbD (f : BitField) (v w : Word) {i : Nat} (hi : i < 32) :
    (insertField f v w).getLsbD i =
      if f.offset ≤ i ∧ i < f.offset + f.width then v.getLsbD (i - f.offset) else w.getLsbD i := by
  rw [insertField, BitVec.getLsbD_or, BitVec.getLsbD_and, BitVec.getLsbD_not,
    regMask_getLsbD _ _ hi, BitVec.getLsbD_shiftLeft, BitVec.getLsbD_and, fieldMask_getLsbD]
  split
  · next hin =>
    have hmask : i - f.offset < 32 ∧ i - f.offset < f.width := by omega
    simp [hi, hin, hmask]
  · next hout =>
    rcases lt_or_ge i f.offset with hbelow | hge
    · simp [hi, hbelow, not_le.2 hbelow]
    · have habove : ¬i - f.offset < f.width := by omega
      simp [hi, hout, habove]

/-- A mask too wide for a word is no smaller bound: the word itself is below `2 ^ 32`. -/
theorem fieldMask_toNat_lt (wid : Nat) : (fieldMask wid).toNat < 2 ^ wid := by
  have hpos := Nat.two_pow_pos wid
  rw [fieldMask, BitVec.toNat_ofNat]
  exact (Nat.mod_le _ _).trans_lt (by omega)

theorem extractField_toNat_lt (f : BitField) (w : Word) :
    (extractField f w).toNat < 2 ^ f.width := by
  rw [extractField, BitVec.toNat_and]
  exact Nat.and_le_right.trans_lt (fieldMask_toNat_lt f.width)

/-! ### A field after an insertion (R123) -/

theorem extractField_insertField_same {f : BitField} (v w : Word) (h : f.offset + f.width ≤ 32) :
    extractField f (insertField f v w) = v &&& fieldMask f.width := by
  refine BitVec.eq_of_getLsbD_eq fun i hi => ?_
  rw [extractField_getLsbD _ _ hi,
    BitVec.getLsbD_and, fieldMask_getLsbD]
  by_cases hw : i < f.width
  · rw [insertField_getLsbD f v w (by omega), if_pos (by omega), Nat.add_sub_cancel_left]
    simp [hi]
  · simp [hw]

theorem insertField_and_not_regMask (f : BitField) (v w : Word) :
    insertField f v w &&& ~~~regMask f.offset f.width = w &&& ~~~regMask f.offset f.width := by
  refine BitVec.eq_of_getLsbD_eq fun i hi => ?_
  rw [BitVec.getLsbD_and,
    BitVec.getLsbD_and, BitVec.getLsbD_not, regMask_getLsbD _ _ hi, insertField_getLsbD f v w hi]
  split
  · next hin => simp [hin]
  · rfl

/-- Two fields share no bit: one ends at or below the other's offset. -/
theorem fieldsDisjoint_some_iff (f g : BitField) :
    fieldsDisjoint (some f) (some g) = true ↔
      f.offset + f.width ≤ g.offset ∨ g.offset + g.width ≤ f.offset := by
  simp [fieldsDisjoint]

theorem fieldsDisjoint_comm : ∀ a b : Option BitField, fieldsDisjoint a b = fieldsDisjoint b a
  | some _, some _ => Bool.or_comm _ _
  | some _, none => rfl
  | none, some _ => rfl
  | none, none => rfl

theorem extractField_insertField_of_disjoint {f g : BitField} (v w : Word)
    (h : fieldsDisjoint (some f) (some g) = true) :
    extractField g (insertField f v w) = extractField g w := by
  rw [fieldsDisjoint_some_iff] at h
  refine BitVec.eq_of_getLsbD_eq fun i hi => ?_
  rw [extractField_getLsbD _ _ hi,
    extractField_getLsbD _ _ hi]
  by_cases hw : g.offset + i < 32 ∧ i < g.width
  · rw [insertField_getLsbD f v w hw.1, if_neg (by omega)]
  · rcases not_and_or.1 hw with hhigh | habove
    · rw [BitVec.getLsbD_of_ge _ _ (by omega), BitVec.getLsbD_of_ge _ _ (by omega)]
    · simp [habove]

/-! ### The fields of a legal layout (`00_scope.md` R6) -/

section Layout
variable {c : Config} {f g : BitField} {i j : Nat}

theorem layoutField_eq_some_iff : layoutField c i = some f ↔ c.layout[i]? = some (some f) :=
  Option.join_eq_some_iff

theorem layoutField_inside (hc : c.layoutOk) (hf : layoutField c i = some f) :
    f.offset + f.width ≤ 32 := by
  obtain ⟨-, hinside, -⟩ := hc
  have hfield := hinside _ (List.mem_of_getElem? (layoutField_eq_some_iff.1 hf))
  simp only [fieldInside, Bool.and_eq_true, decide_eq_true_eq] at hfield
  exact hfield.2

/-- The layout asks this of the indexes in rising order; disjointness is symmetric. -/
theorem layoutField_disjoint (hc : c.layoutOk) (hij : i ≠ j) (hf : layoutField c i = some f)
    (hg : layoutField c j = some g) : fieldsDisjoint (some f) (some g) = true := by
  obtain ⟨-, -, hpair, -⟩ := hc
  rw [List.pairwise_iff_getElem] at hpair
  obtain ⟨hi, hfi⟩ := List.getElem?_eq_some_iff.1 (layoutField_eq_some_iff.1 hf)
  obtain ⟨hj, hgj⟩ := List.getElem?_eq_some_iff.1 (layoutField_eq_some_iff.1 hg)
  rw [← hfi, ← hgj]
  rcases Nat.lt_or_gt_of_ne hij with hlt | hgt
  · exact hpair i j hi hj hlt
  · rw [fieldsDisjoint_comm]
    exact hpair j i hj hi hgt

end Layout

/-! ### The id decode (R120); `decodeId_ok` is the case of a known id -/

theorem decodeId_of_unknown {c : Config} {id : Word}
    (h : id.toNat < c.dhPseudoBase ∨ c.dhPseudoBase + 9 < id.toNat ∨
      layoutField c (id.toNat - c.dhPseudoBase) = none) :
    decodeId c id = .error ⟨.pseudoUnknownId, id.toNat, 0, 0, 0⟩ := by
  cases hd : decodeId c id with
  | error e => rw [decodeId_error c id e hd]
  | ok f =>
    obtain ⟨hlo, hhi, hf⟩ := (decodeId_ok c id f).1 hd
    rcases h with h | h | h
    · omega
    · omega
    · simp [hf] at h

/-- Two known ids name fields at different indexes, and so fields with no bit in common. -/
theorem decodeId_disjoint {c : Config} {id other : Word} {f g : BitField} (hc : c.layoutOk)
    (hne : other ≠ id) (hf : decodeId c id = .ok f) (hg : decodeId c other = .ok g) :
    fieldsDisjoint (some f) (some g) = true := by
  obtain ⟨hloF, -, hfieldF⟩ := (decodeId_ok c id f).1 hf
  obtain ⟨hloG, -, hfieldG⟩ := (decodeId_ok c other g).1 hg
  have hidx : id.toNat - c.dhPseudoBase ≠ other.toNat - c.dhPseudoBase := by
    have := BitVec.toNat_ne.1 hne
    omega
  exact layoutField_disjoint hc hidx hfieldF hfieldG

/-! ### How the two commands end -/

section Commands
variable {s : State} {id value : Word} {f : BitField} {e : Failure}

theorem exec_getps_of_decoded (h : decodeId s.cfg id = .ok f) :
    exec (.getps id) s = .next (s.complete (extractField f (s.reg 0))) := by
  rw [exec, execGetps, h]
  exact finishRead_ok s _

theorem exec_getps_of_decode_error (h : decodeId s.cfg id = .error e) :
    exec (.getps id) s = .next (s.raise e) := by
  rw [exec, execGetps, h]
  exact finishRead_error s e

theorem exec_setps_of_decoded (h : decodeId s.cfg id = .ok f) :
    exec (.setps id value) s =
      .next ((s.setReg 0 (insertField f value (s.reg 0))).complete 0) := by
  rw [exec, execSetps, h]
  exact finish_ok s _

theorem exec_setps_of_decode_error (h : decodeId s.cfg id = .error e) :
    exec (.setps id value) s = .next (s.raise e) := by
  rw [exec, execSetps, h]
  exact finish_error s e

/-- What a completed `SETPS` leaves for the next command to see. -/
theorem setps_next {t : State} (hregs : 0 < s.regs.length) (h : decodeId s.cfg id = .ok f)
    (ht : exec (.setps id value) s = .next t) :
    t.cfg = s.cfg ∧ t.reg 0 = insertField f value (s.reg 0) := by
  rw [exec_setps_of_decoded h] at ht
  cases ht
  exact ⟨rfl, reg_setReg_same s 0 _ hregs⟩

end Commands

/-! ### The statements -/

/-- Settles O16: the decode of the id decides how `GETPS` ends. -/
theorem getpsUnpacksField : Obligations.GetpsUnpacksField := by
  intro s id
  refine ⟨fun f hlo hhi hf => ⟨?slice, ?bound⟩, fun hun => ?unknown, rfl, rfl⟩
  case slice => exact exec_getps_of_decoded ((decodeId_ok s.cfg id f).2 ⟨hlo, hhi, hf⟩)
  case bound => exact extractField_toNat_lt f (s.reg 0)
  case unknown => exact exec_getps_of_decode_error (decodeId_of_unknown hun)

/-- Settles O17: the decode of the id decides how `SETPS` ends. -/
theorem setpsPacksField : Obligations.SetpsPacksField := by
  intro s id value
  refine ⟨fun f hlo hhi hf => ?known, fun hun => ?unknown, rfl, rfl⟩
  case known => exact exec_setps_of_decoded ((decodeId_ok s.cfg id f).2 ⟨hlo, hhi, hf⟩)
  case unknown => exact exec_setps_of_decode_error (decodeId_of_unknown hun)

/-- Settles O18: after the `SETPS` register 0 holds the insertion, in which the field itself, the bits
outside it and every field disjoint from it read as the laws of `insertField` say. -/
theorem setpsRoundTripAndIsolation : Obligations.SetpsRoundTripAndIsolation := by
  intro s t id value f hlegal hregs hdec hset
  obtain ⟨-, -, -, hlayout, -⟩ := hlegal
  obtain ⟨hcfg, hreg⟩ := setps_next hregs hdec hset
  obtain ⟨-, -, hfield⟩ := (decodeId_ok s.cfg id f).1 hdec
  refine ⟨⟨_, exec_getps_of_decoded (hcfg ▸ hdec), ?roundTrip⟩, ?outside, fun other g hne hother =>
    ⟨_, _, _, exec_getps_of_decoded hother, exec_getps_of_decoded (hcfg ▸ hother), rfl, ?isolation⟩⟩
  case roundTrip =>
    rw [complete_sent, hcfg, hreg,
      extractField_insertField_same value _ (layoutField_inside hlayout hfield)]
  case outside => rw [hreg, insertField_and_not_regMask]
  case isolation =>
    rw [complete_sent, hcfg, hreg, extractField_insertField_of_disjoint value _
      (decodeId_disjoint hlayout hne hdec hother)]

end Sys2Proof.Machine
end

