-- ==== Sys2Proof/Proofs/SequenceChecks.lean ====
section
/-!
PROOFS. The checks that the sequence types share (`42_sequence_config.md` R143, R144, R146): each failure
of a check, and from these the three statements. The case without a failure is in `Laws/Sequence.lean`
(`checkFrames_ok`, `exposureSteps_ok`, `gapSteps_ok`).
-/

namespace Sys2Proof.Machine

/-! ### The frame count (R143) -/

section Frames
variable {c : Config} {nf : Int}

theorem checkFrames_low (h : nf < (descriptor c 1).minimum) :
    checkFrames c nf =
      .error ⟨.seqFramesLow, nf, (descriptor c 1).minimum, (descriptor c 1).maximum, 0⟩ :=
  if_pos h

theorem checkFrames_high (hlo : (descriptor c 1).minimum ≤ nf)
    (hhi : (descriptor c 1).maximum < nf) :
    checkFrames c nf =
      .error ⟨.seqFramesHigh, nf, (descriptor c 1).minimum, (descriptor c 1).maximum, 0⟩ := by
  rw [checkFrames, if_neg (not_lt.2 hlo), if_pos hhi]

end Frames

/-! ### The exposure time (R144) -/

section Exposure
variable {c : Config} {e : Int}

theorem exposureSteps_negative (h : e < 0) :
    exposureSteps c e = .error ⟨.seqExposureNegative, e, c.stepSize, 0, 0⟩ :=
  if_pos h

theorem exposureSteps_outOfRange (he : 0 ≤ e)
    (h : floorDiv e c.stepSize < (descriptor c 2).minimum ∨
      (descriptor c 2).maximum < floorDiv e c.stepSize) :
    exposureSteps c e =
      .error ⟨.seqExposureStepsRange, e, floorDiv e c.stepSize, (descriptor c 2).minimum,
        (descriptor c 2).maximum⟩ := by
  rw [exposureSteps, if_neg (not_lt.2 he), if_pos h]

end Exposure

/-! ### The gap time (R146) -/

section Gap
variable {c : Config} {g : Int}

theorem gapSteps_negative (h : g < 0) :
    gapSteps c g = .error ⟨.seqGapNegative, g, c.stepSize, 1, c.gapStepsMax⟩ :=
  if_pos h

theorem gapSteps_low (hg : 0 ≤ g) (h : floorDiv g c.stepSize < 1) :
    gapSteps c g = .error ⟨.seqGapLow, g, floorDiv g c.stepSize, 1, c.gapStepsMax⟩ := by
  rw [gapSteps, if_neg (not_lt.2 hg), if_pos h]

theorem gapSteps_high (hg : 0 ≤ g) (hlo : 1 ≤ floorDiv g c.stepSize)
    (hhi : (c.gapStepsMax : Int) < floorDiv g c.stepSize) :
    gapSteps c g = .error ⟨.seqGapHigh, g, floorDiv g c.stepSize, 1, c.gapStepsMax⟩ := by
  rw [gapSteps, if_neg (not_lt.2 hg), if_neg (not_lt.2 hlo), if_pos hhi]

end Gap

/-! ### The statements -/

/-- Settles O19: two ways for the check to fail, and neither. -/
theorem frameCountIsChecked : Obligations.FrameCountIsChecked := fun c nf =>
  ⟨checkFrames_low, checkFrames_high, fun hlo hhi => (checkFrames_ok c nf).2 ⟨hlo, hhi⟩, rfl, rfl⟩

/-- Settles O20: two ways for the check to fail, and neither. -/
theorem exposureStepsAreFloored : Obligations.ExposureStepsAreFloored := fun c e =>
  ⟨exposureSteps_negative, exposureSteps_outOfRange,
    fun he hlo hhi => (exposureSteps_ok c e _).2 ⟨he, rfl, hlo, hhi⟩, rfl, rfl⟩

/-- Settles O21: three ways for the check to fail, and none of them. -/
theorem gapStepsAreBounded : Obligations.GapStepsAreBounded := fun c g =>
  ⟨gapSteps_negative, gapSteps_low, gapSteps_high,
    fun hg hlo hhi => (gapSteps_ok c g _).2 ⟨hg, rfl, hlo, hhi⟩, rfl, rfl, rfl⟩

end Sys2Proof.Machine
end

