-- ==== Sys2Proof/Proofs/UnknownSequence.lean ====
section
/-!
PROOFS. A `CFGSEQ` frame of a type that is none of the nine (`42_sequence_config.md` R170): the header
of a `P` frame passes the decoder's three checks, the type has no command, and so the frame is answered
without a command having run.
-/

namespace Sys2Proof

/-- R79: the types outside 1 to 9 have no command; the converse is `sequenceOfType_eq_none`. -/
theorem sequenceOfType_of_unlisted {t : Byte} (ps : List S64) (h : t.toNat = 0 ∨ 10 ≤ t.toNat) :
    sequenceOfType t ps = none := by
  unfold sequenceOfType
  split
  case h_10 => rfl
  all_goals omega

/-! ### The header of a `P` frame (R72, R73) -/

section Header
variable {t : Byte} {ps : List S64}

theorem headerNw_sequence (h : paramCountOk ps) :
    headerNw (header 0x05 t (BitVec.ofNat 8 (2 * ps.length))) = 2 * ps.length := by
  obtain ⟨-, hle⟩ := h
  rw [headerNw_header, BitVec.toNat_ofNat, Nat.mod_eq_of_lt (by omega)]

theorem lengthAllowed_sequence (h : paramCountOk ps) :
    lengthAllowed (header 0x05 t (BitVec.ofNat 8 (2 * ps.length))) = true := by
  rw [lengthAllowed, headerOpc_header, headerNw_sequence h]
  obtain ⟨hpos, hle⟩ := h
  simp
  omega

/-- Every `P` frame with 1 to 8 parameters gets as far as its type. -/
theorem decodeFrame_sequence (h : paramCountOk ps) (ops : List Word) :
    decodeFrame (header 0x05 t (BitVec.ofNat 8 (2 * ps.length))) ops =
      commandOf (header 0x05 t (BitVec.ofNat 8 (2 * ps.length))) ops := by
  refine decodeFrame_eq_commandOf ops ?_ ?_ ?_
  · simp [opcodeListed]
  · simp [reservedBitsZero]
  · exact ne_false_of_eq_true (lengthAllowed_sequence h)

theorem decodeFrame_unknownSequence (h : paramCountOk ps) (ht : t.toNat = 0 ∨ 10 ≤ t.toNat)
    (ops : List Word) :
    decodeFrame (header 0x05 t (BitVec.ofNat 8 (2 * ps.length))) ops =
      .error (.unknownSequence t) := by
  rw [decodeFrame_sequence h]
  simp [commandOf, sequenceOfType_of_unlisted _ ht]

end Header

namespace Machine

/-- Settles O9: the decoder rejects the whole frame by its type, and the answer to that rejection is the
error response alone. -/
theorem unknownSequenceTypeFails : Obligations.UnknownSequenceTypeFails := by
  intro s t ps rest hps ht hp
  have hnw := headerNw_sequence (t := t) hps
  have hwhole : headerNw (header 0x05 t (BitVec.ofNat 8 (2 * ps.length))) ≤
      (wordsOfParams ps ++ rest).length := by
    rw [hnw, List.length_append, length_wordsOfParams]
    exact Nat.le_add_right _ _
  refine ⟨?_, rfl, rfl⟩
  rw [step_of_decodeFrame_error (rest := wordsOfParams ps ++ rest) hp hwhole (by simp)
    (decodeFrame_unknownSequence hps ht _), hnw]
  rfl

end Machine
end Sys2Proof
end

