-- ==== Sys2Proof/Proofs/SequencePlan.lean ====
section
/-!
PROOFS. What every `CFGSEQ` does, said once: the plan its validate phase computes and what that phase
reads, the control word of the plan as insertions into bit fields (`42_sequence_config.md` R141, R145,
R160, R165), the geometry action of the plan, and what the commit phase leaves of each register (R171).
-/

namespace Sys2Proof.Machine

/-! ### The plan of a command -/

/-- The validate phase of a command, if it is one of the nine `CFGSEQ`. -/
def sequencePlan (s : State) : Instr → Option (Except Failure SequencePlan)
  | .cfgseqStreak ps => some (streakPlan s ps)
  | .cfgseqSubimage ps => some (subimagePlan s ps)
  | i => (frameRequest s.cfg i).map fun (t, ps, nf, e, f) => frameBasedPlan s t ps nf e f

section Plan
variable {i : Instr} {s s' t : State} {r : Except Failure SequencePlan}

theorem sequencePlan_isSome (s : State) (i : Instr) : (sequencePlan s i).isSome = isSequence i := by
  cases i <;> rfl

theorem exec_eq_runSequence (h : sequencePlan s i = some r) : exec i s = runSequence s r := by
  cases i <;> cases h <;> rfl

/-- The two outcomes of a `CFGSEQ`. -/
theorem exec_sequence_cases (hi : isSequence i = true) (h : exec i s = .next t) :
    (∃ p, sequencePlan s i = some (.ok p) ∧ t = (commitPlan s p).complete 0) ∨
      (∃ f, sequencePlan s i = some (.error f) ∧ t = s.raise f) := by
  rw [← sequencePlan_isSome s] at hi
  obtain ⟨r, hr⟩ := Option.isSome_iff_exists.1 hi
  rw [exec_eq_runSequence hr] at h
  rcases runSequence_cases s t r h with ⟨p, rfl, ht⟩ | ⟨f, rfl, ht⟩
  · exact .inl ⟨p, hr, ht⟩
  · exact .inr ⟨f, hr, ht⟩

/-- The validate phase reads the configuration, the control register and the readout time. -/
theorem sequencePlan_congr (hcfg : s'.cfg = s.cfg) (hreg : s'.reg 0 = s.reg 0)
    (htime : s'.readoutTime = s.readoutTime) (i : Instr) : sequencePlan s' i = sequencePlan s i := by
  have hmode : s'.mode = s.mode := by rw [State.mode, State.mode, hcfg, hreg]
  unfold sequencePlan
  split
  · simp only [streakPlan, hcfg, hreg, hmode]
  · simp only [subimagePlan, hcfg, hreg, hmode]
  · simp only [frameBasedPlan, hcfg, hreg, hmode, htime]

end Plan

/-! ### What a plan asks for -/

/-- The readout mode that a successful `CFGSEQ` leaves (R173). -/
def targetMode : Instr → Word
  | .cfgseqStreak _ => streakCamera
  | .cfgseqSubimage _ => subImage
  | _ => fullFrame

/-- A mode code fits the two bits of the readout-mode field (R29). -/
theorem targetMode_fits (i : Instr) : targetMode i &&& fieldMask 2 = targetMode i := by
  unfold targetMode
  split <;> decide

/-- The one way in which the branches move the mode: a field already in place is not rewritten. -/
def enterMode (c : Config) (mode old w : Word) : Word := if old ≠ mode then withMode c mode w else w

/-- The mode code of FullFrame is 0, so there is nothing to OR in. -/
theorem leaveToFullFrame_eq_enterMode (c : Config) (old w : Word) :
    leaveToFullFrame c old w = enterMode c fullFrame old w := by
  have hclear : withMode c fullFrame w = w &&& ~~~readoutMask c := by simp [withMode, fullFrame]
  rw [leaveToFullFrame, enterMode, hclear]

/-- The geometry action of the types that do not enter streak-camera mode (R145, R165): a restore when
the block leaves that mode, and nothing else. -/
def LeavesStreak (s : State) (p : SequencePlan) : Prop :=
  p.restore = (s.mode == streakCamera) ∧ p.save = false ∧ ∀ g, branchGeometry p.branch g = g

/-- The geometry action of `CFGSEQ.STREAK` (R160): a save when the block enters streak-camera mode, and
half the lines as the vertical frame size. -/
def EntersStreak (s : State) (ps : List S64) (p : SequencePlan) : Prop :=
  p.restore = false ∧ p.save = (s.mode != streakCamera) ∧
    ∃ lines, streakLines s.cfg (param ps 0) = .ok lines ∧ p.branch = .streak lines (floorDiv lines 2)

/-- What a plan asks for: a control word made in the same two steps for every type, and the geometry
action of one of the two kinds. -/
theorem sequencePlan_ok_cases {i : Instr} {s : State} {p : SequencePlan}
    (h : sequencePlan s i = some (.ok p)) :
    (∃ t, p.new = enterMode s.cfg (targetMode i) s.mode (prologueWord s.cfg t (s.reg 0))) ∧
      ((∃ ps, i = .cfgseqStreak ps ∧ EntersStreak s ps p) ∨
        (targetMode i ≠ streakCamera ∧ LeavesStreak s p)) := by
  unfold sequencePlan at h
  split at h
  · next ps =>
    obtain ⟨-, -, lines, hlines, es, -, gs, -, rfl⟩ := (streakPlan_ok s ps p).1 (Option.some.inj h)
    exact ⟨⟨_, rfl⟩, .inl ⟨ps, rfl, rfl, rfl, lines, hlines, rfl⟩⟩
  · next ps =>
    obtain ⟨-, -, -, sf, -, sp, -, es, -, gs, -, rfl⟩ :=
      (subimagePlan_ok s ps p).1 (Option.some.inj h)
    exact ⟨⟨_, rfl⟩, .inr ⟨by simp [targetMode, subImage, streakCamera], rfl, rfl, fun _ => rfl⟩⟩
  · next hstreak hsubimage =>
    have htarget : targetMode i = fullFrame := by
      unfold targetMode
      split
      · exact absurd rfl (hstreak _)
      · exact absurd rfl (hsubimage _)
      · rfl
    obtain ⟨⟨t, ps, nf, e, f⟩, -, hplan⟩ := Option.map_eq_some_iff.1 h
    obtain ⟨-, -, -, es, -, gap, -, rfl⟩ := (frameBasedPlan_ok s t ps nf e f p).1 hplan
    rw [htarget]
    exact ⟨⟨t, leaveToFullFrame_eq_enterMode _ _ _⟩, .inr ⟨by decide, rfl, rfl, fun _ => rfl⟩⟩

/-! ### The control word of a plan -/

section ControlWord
variable {c : Config} {f : BitField}

theorem readoutMask_eq (hf : layoutField c 1 = some f) :
    readoutMask c = regMask f.offset f.width := by
  simp [readoutMask, pseudoMask, pseudoIndex, hf]

theorem durationBit_eq (hf : layoutField c 3 = some f) :
    durationBit c = regMask f.offset f.width := by
  simp [durationBit, pseudoMask, pseudoIndex, hf]

theorem readoutOffset_eq (hf : layoutField c 1 = some f) :
    pseudoOffset c .readoutMode = f.offset := by
  simp [pseudoOffset, pseudoIndex, hf]

/-- R29 masks before it shifts, R121 after: the slice is the same. -/
theorem modeOf_eq_extractField (hf : layoutField c 1 = some f) (w : Word) :
    modeOf c w = extractField f w := by
  rw [modeOf, readoutMask_eq hf, readoutOffset_eq hf]
  refine BitVec.eq_of_getLsbD_eq fun i hi => ?_
  rw [extractField_getLsbD f w hi, BitVec.getLsbD_ushiftRight, BitVec.getLsbD_and]
  by_cases hin : f.offset + i < 32
  · simp [regMask_getLsbD _ _ hin]
  · simp [BitVec.getLsbD_of_ge w _ (Nat.not_lt.1 hin)]

theorem withMode_eq_insertField (hf : layoutField c 1 = some f) {m : Word}
    (hm : m &&& fieldMask f.width = m) (w : Word) : withMode c m w = insertField f m w := by
  rw [withMode, insertField, readoutMask_eq hf, readoutOffset_eq hf, hm]

/-- The prologue fills the duration-trigger field with ones or with zeros (R141). -/
theorem prologueWord_eq_insertField (hf : layoutField c 3 = some f) (t : SequenceType) (w : Word) :
    prologueWord c t w = insertField f (if t = .bulb then fieldMask f.width else 0) w := by
  rw [prologueWord, durationBit_eq hf]
  split
  · rw [insertField, BitVec.and_self]
    refine BitVec.eq_of_getLsbD_eq fun i hi => ?_
    rw [← regMask]
    simp only [BitVec.getLsbD_or, BitVec.getLsbD_and, BitVec.getLsbD_not, hi, decide_true]
    cases w.getLsbD i <;> simp
  · simp [insertField]

end ControlWord

/-! ### The control word under a legal layout (`00_scope.md` R6) -/

section LegalLayout
variable {c : Config} {m : Word} (hc : c.layoutOk)
include hc

theorem layout_readoutMode : ∃ f, layoutField c 1 = some f ∧ f.width = 2 := by
  obtain ⟨-, -, -, hreadout, -⟩ := hc
  exact Option.map_eq_some_iff.1 hreadout

theorem layout_durationTrigger : ∃ f, layoutField c 3 = some f := by
  obtain ⟨-, -, -, -, hduration⟩ := hc
  obtain ⟨f, hf, -⟩ := Option.map_eq_some_iff.1 hduration
  exact ⟨f, hf⟩

theorem modeOf_withMode (hm : m &&& fieldMask 2 = m) (w : Word) : modeOf c (withMode c m w) = m := by
  obtain ⟨f, hf, hwidth⟩ := layout_readoutMode hc
  rw [← hwidth] at hm
  rw [modeOf_eq_extractField hf, withMode_eq_insertField hf hm,
    extractField_insertField_same _ _ (layoutField_inside hc hf), hm]

/-- The prologue moves the duration trigger, which shares no bit with the readout mode. -/
theorem modeOf_prologueWord (t : SequenceType) (w : Word) :
    modeOf c (prologueWord c t w) = modeOf c w := by
  obtain ⟨f, hf, -⟩ := layout_readoutMode hc
  obtain ⟨g, hg⟩ := layout_durationTrigger hc
  rw [modeOf_eq_extractField hf, modeOf_eq_extractField hf, prologueWord_eq_insertField hg,
    extractField_insertField_of_disjoint _ _ (layoutField_disjoint hc (by decide) hg hf)]

/-- Whatever the mode was, the branch ends in the mode it enters. -/
theorem modeOf_enterMode (hm : m &&& fieldMask 2 = m) (t : SequenceType) (w : Word) :
    modeOf c (enterMode c m (modeOf c w) (prologueWord c t w)) = m := by
  unfold enterMode
  split
  · exact modeOf_withMode hc hm _
  · next hsame => rw [modeOf_prologueWord hc, not_ne_iff.1 hsame]

theorem withMode_outside (hm : m &&& fieldMask 2 = m) (w : Word) :
    withMode c m w &&& ~~~(durationBit c ||| readoutMask c) =
      w &&& ~~~(durationBit c ||| readoutMask c) := by
  obtain ⟨f, hf, hwidth⟩ := layout_readoutMode hc
  rw [← hwidth] at hm
  rw [withMode_eq_insertField hf hm, readoutMask_eq hf, BitVec.not_or, BitVec.and_comm (~~~_),
    ← BitVec.and_assoc, insertField_and_not_regMask, BitVec.and_assoc]

theorem prologueWord_outside (t : SequenceType) (w : Word) :
    prologueWord c t w &&& ~~~(durationBit c ||| readoutMask c) =
      w &&& ~~~(durationBit c ||| readoutMask c) := by
  obtain ⟨g, hg⟩ := layout_durationTrigger hc
  rw [prologueWord_eq_insertField hg, durationBit_eq hg, BitVec.not_or, ← BitVec.and_assoc,
    insertField_and_not_regMask, BitVec.and_assoc]

/-- Neither step writes a bit outside its own field. -/
theorem enterMode_outside (hm : m &&& fieldMask 2 = m) (old : Word) (t : SequenceType) (w : Word) :
    enterMode c m old (prologueWord c t w) &&& ~~~(durationBit c ||| readoutMask c) =
      w &&& ~~~(durationBit c ||| readoutMask c) := by
  unfold enterMode
  split
  · rw [withMode_outside hc hm, prologueWord_outside hc]
  · exact prologueWord_outside hc t w

end LegalLayout

/-! ### The registers after the commit phase (R171) -/

section Commit
variable {r : List Word} {k : Nat}

theorem getD_set_other (v : Word) {j : Nat} (h : k ≠ j) : (r.set j v).getD k 0 = r.getD k 0 := by
  simp [List.getD_eq_getElem?_getD, Ne.symm h]

theorem gapRegs_other (gap : Option Int) (h : k ≠ 3) : (gapRegs gap r).getD k 0 = r.getD k 0 := by
  cases gap with
  | none => rfl
  | some gs => exact getD_set_other _ h

theorem branchRegs_other (b : SequenceBranch) (h : k < 4 ∨ 7 ≤ k) :
    (branchRegs b r).getD k 0 = r.getD k 0 := by
  cases b with
  | frameBased => rfl
  | streak lines vsize => exact getD_set_other _ (by omega)
  | subimage sf sp => rw [branchRegs, getD_set_other _ (by omega), getD_set_other _ (by omega)]

theorem branchRegs_set (b : SequenceBranch) (v : Word) (h : 7 ≤ k) :
    branchRegs b (r.set k v) = (branchRegs b r).set k v := by
  cases b with
  | frameBased => rfl
  | streak lines vsize => exact List.set_comm _ _ (by omega)
  | subimage sf sp =>
    simp only [branchRegs]
    rw [List.set_comm _ _ (by omega : k ≠ 5), List.set_comm _ _ (by omega : k ≠ 6)]

theorem gapRegs_set (gap : Option Int) (v : Word) (h : 7 ≤ k) :
    gapRegs gap (r.set k v) = (gapRegs gap r).set k v := by
  cases gap with
  | none => rfl
  | some gs => exact List.set_comm _ _ (by omega)

theorem controlRegs_set (o n v : Word) (h : 7 ≤ k) :
    controlRegs o n (r.set k v) = (controlRegs o n r).set k v := by
  unfold controlRegs
  split
  · exact List.set_comm _ _ (by omega)
  · rfl

variable (s : State) (p : SequencePlan)

/-- Steps 2 to 5 of the commit phase write registers 1 to 6 only. -/
theorem commit_before_control_other (h : k = 0 ∨ 7 ≤ k) :
    (gapRegs p.gap ((branchRegs p.branch (s.regs.set 1 (BitVec.ofInt 32 p.frames))).set 2
      (BitVec.ofInt 32 p.exposure))).getD k 0 = s.reg k := by
  rw [gapRegs_other _ (by omega), getD_set_other _ (by omega), branchRegs_other _ (by omega),
    getD_set_other _ (by omega), State.reg]

theorem reg_commitPlan_zero (h : 0 < s.regs.length) : (commitPlan s p).reg 0 = p.new := by
  rw [State.reg, commitPlan_regs]
  exact controlRegs_zero _ _ _ (by simpa using h) (commit_before_control_other s p (.inl rfl))

theorem reg_commitPlan_of_ge (h : 7 ≤ k) : (commitPlan s p).reg k = s.reg k :=
  (controlRegs_other _ _ _ k (by omega)).trans (commit_before_control_other s p (.inr h))

theorem reg_commitPlan_streakLines {lines vsize : Int} (hb : p.branch = .streak lines vsize)
    (h : 4 < s.regs.length) : (commitPlan s p).reg 4 = BitVec.ofInt 32 lines := by
  rw [State.reg, commitPlan_regs, controlRegs_other _ _ _ 4 (by decide),
    gapRegs_other _ (by decide), getD_set_other _ (by decide), hb, branchRegs]
  simp [h]

/-- The commit phase neither writes nor reads a register at offset 7 or above. -/
theorem commitPlan_setReg (v : Word) (h : 7 ≤ k) :
    commitPlan (s.setReg k v) p = (commitPlan s p).setReg k v := by
  have hregs : (commitPlan (s.setReg k v) p).regs = ((commitPlan s p).setReg k v).regs := by
    rw [setReg_regs, commitPlan_regs, commitPlan_regs, setReg_regs,
      reg_setReg_other s k 0 v (by omega), List.set_comm _ _ (by omega : k ≠ 1),
      branchRegs_set _ _ h, List.set_comm _ _ (by omega : k ≠ 2), gapRegs_set _ _ h,
      controlRegs_set _ _ _ h]
  calc commitPlan (s.setReg k v) p
      = { commitPlan s p with regs := (commitPlan (s.setReg k v) p).regs } := rfl
    _ = (commitPlan s p).setReg k v := by rw [hregs]; rfl

end Commit

/-! ### The geometry after the commit phase (R171) -/

section Geometry
variable {s : State} {p : SequencePlan}

theorem commitPlan_geometry_of_leaves (h : LeavesStreak s p) :
    (commitPlan s p).geom = leftGeometry s ∧ (commitPlan s p).saved = s.saved := by
  obtain ⟨hrestore, hsave, hbranch⟩ := h
  rw [commitPlan_geom, commitPlan_saved, hbranch, hrestore, hsave]
  simp [leftGeometry]

theorem commitPlan_geometry_of_enters {ps : List S64} (h : EntersStreak s ps p) :
    (commitPlan s p).geom = { s.geom with framesizeV := (commitPlan s p).geom.framesizeV } ∧
      (commitPlan s p).saved = if s.mode = streakCamera then s.saved else s.geom := by
  obtain ⟨hrestore, hsave, lines, -, hbranch⟩ := h
  rw [commitPlan_geom, commitPlan_saved, hbranch, hrestore, hsave]
  simp [branchGeometry]

end Geometry

end Sys2Proof.Machine
end

