-- ==== Sys2Proof/Proofs/SequenceFrame.lean ====
section
/-!
PROOFS. What no `CFGSEQ` writes and what none reads (`42_sequence_config.md` R175): the frame of the
commit phase, the run of a command on a state that differs where the plan does not look, and from these
the statement.
-/

namespace Sys2Proof.Machine

/-! ### What the commit phase leaves alone -/

theorem sameElsewhere_commitPlan (s : State) (p : SequencePlan) (d : Word) :
    sameElsewhere s ((commitPlan s p).complete d) :=
  ⟨rfl, rfl, rfl, rfl, rfl, rfl, rfl, rfl, rfl, rfl, rfl⟩

theorem sameElsewhere_raise (s : State) (f : Failure) : sameElsewhere s (s.raise f) :=
  ⟨rfl, rfl, rfl, rfl, rfl, rfl, rfl, rfl, rfl, rfl, rfl⟩

section Frame
variable {i : Instr} {s : State} {p : SequencePlan} (h : sequencePlan s i = some (.ok p))
include h

/-- A block without registers has no control word to change. -/
theorem control_outside_commitPlan (hc : s.cfg.layoutOk) :
    (commitPlan s p).reg 0 &&& ~~~(durationBit s.cfg ||| readoutMask s.cfg) =
      s.reg 0 &&& ~~~(durationBit s.cfg ||| readoutMask s.cfg) := by
  obtain ⟨⟨t, hnew⟩, -⟩ := sequencePlan_ok_cases h
  rcases Nat.eq_zero_or_pos s.regs.length with hempty | hpos
  · have hnone : (commitPlan s p).regs.length = 0 := by simpa using hempty
    rw [State.reg, State.reg, List.length_eq_zero_iff.1 hnone, List.length_eq_zero_iff.1 hempty]
  · rw [reg_commitPlan_zero s p hpos, hnew, enterMode_outside hc (targetMode_fits i)]

theorem framesizeH_commitPlan :
    (commitPlan s p).geom.framesizeH = s.geom.framesizeH ∨ (commitPlan s p).geom = s.saved := by
  obtain ⟨-, ⟨ps, -, henters⟩ | ⟨-, hleaves⟩⟩ := sequencePlan_ok_cases h
  · rw [(commitPlan_geometry_of_enters henters).1]
    exact .inl rfl
  · rw [(commitPlan_geometry_of_leaves hleaves).1, leftGeometry]
    split
    · exact .inr rfl
    · exact .inl rfl

end Frame

/-! ### The same command on another state -/

section Rerun
variable {i : Instr} {s t : State} (hi : isSequence i = true) (h : exec i s = .next t)
include hi h

/-- The plan is the same, and the commit phase carries the other memories along. -/
theorem exec_sequence_other_memories (raw img lut : Memory) (m : ImageMeta) (b : Bool) :
    exec i { s with raw := raw, img := img, lut := lut, imgMeta := m, lutLoaded := b } =
      .next { t with raw := raw, img := img, lut := lut, imgMeta := m, lutLoaded := b } := by
  have hsame := sequencePlan_congr (s := s)
    (s' := { s with raw := raw, img := img, lut := lut, imgMeta := m, lutLoaded := b }) rfl rfl rfl i
  rcases exec_sequence_cases hi h with ⟨p, hp, rfl⟩ | ⟨f, hf, rfl⟩
  · exact exec_eq_runSequence (hsame.trans hp)
  · exact exec_eq_runSequence (hsame.trans hf)

theorem exec_sequence_other_register {k : Nat} (v : Word) (hk : 7 ≤ k) :
    exec i (s.setReg k v) = .next (t.setReg k v) := by
  have hsame := sequencePlan_congr (setReg_cfg s k v) (reg_setReg_other s k 0 v (by omega))
    (setReg_readoutTime s k v) i
  rcases exec_sequence_cases hi h with ⟨p, hp, rfl⟩ | ⟨f, hf, rfl⟩
  · rw [exec_eq_runSequence (hsame.trans hp), runSequence_ok, commitPlan_setReg s p v hk]
    rfl
  · exact exec_eq_runSequence (hsame.trans hf)

end Rerun

/-- Settles O33: a failed command only responds; a completed one writes what the commit phase writes,
and either does the same on a state that differs where its plan does not look. -/
theorem cfgseqFrame : Obligations.CfgseqFrame := by
  intro i s t hi h
  have hmemories := exec_sequence_other_memories hi h
  have hregister := fun k v hk => exec_sequence_other_register (k := k) hi h v hk
  rcases exec_sequence_cases hi h with ⟨p, hp, rfl⟩ | ⟨f, -, rfl⟩
  · exact ⟨sameElsewhere_commitPlan s p 0, fun k hk => reg_commitPlan_of_ge s p hk,
      fun ⟨_, _, _, hlayout, _⟩ => control_outside_commitPlan hp hlayout,
      framesizeH_commitPlan hp, rfl, rfl, rfl, hmemories, hregister⟩
  · exact ⟨sameElsewhere_raise s f, fun _ _ => rfl, fun _ => rfl, .inl rfl, rfl, rfl, rfl, hmemories,
      hregister⟩

end Sys2Proof.Machine
end

