-- ==== Sys2Proof/Proofs/ReadoutMode.lean ====
section
/-!
PROOFS. The readout-mode machine (`42_sequence_config.md` R173): which responses report `OK`, that a raw
write takes no geometry action, the mode and the geometry after a successful `CFGSEQ` and after a failed
one, and from these the statement.
-/

namespace Sys2Proof.Machine

/-! ### The status of a response (`30_encoding.md` R76, `60_exceptions.md` R230) -/

theorem statusCode_le (st : Status) : statusCode st ≤ 10 := by
  cases st <;> decide

/-- Only `Status.ok` is numbered 0. -/
theorem statusCode_causeStatus_ne_ok (c : Cause) : statusCode (causeStatus c) ≠ statusCode .ok := by
  cases c <;> decide

theorem responseStatus_word0 (m : DetectorModel) (st : Status) (cause : Nat) (rest : List Word) :
    responseStatus (responseWord0 m (statusCode st) cause :: rest) = statusCode st := by
  have hlow : (responseWord0 m (statusCode st) cause).extractLsb' 0 8 =
      BitVec.ofNat 8 (statusCode st) := by
    refine BitVec.eq_of_getLsbD_eq fun i hi => ?_
    rw [responseWord0, BitVec.getLsbD_extractLsb', BitVec.getLsbD_append, BitVec.getLsbD_append]
    simp [hi, show i < 16 by omega]
  have hle := statusCode_le st
  rw [responseStatus, List.getD_cons_zero, hlow, BitVec.toNat_ofNat, Nat.mod_eq_of_lt (by omega)]

section Completion
variable (s t : State)

theorem completedOk_complete (d : Word) (h : t.sent = s.sent) : completedOk s (t.complete d) :=
  ⟨okResponse t.cfg.modelId d, by rw [complete_sent, h], responseStatus_word0 _ .ok _ _⟩

theorem not_completedOk_raise (f : Failure) : ¬completedOk s (s.raise f) := by
  rintro ⟨r, hr, hok⟩
  rw [raise_sent, List.append_cancel_left_eq, List.singleton_inj] at hr
  rw [← hr] at hok
  exact statusCode_causeStatus_ne_ok f.cause ((responseStatus_word0 _ _ _ _).symm.trans hok)

end Completion

/-! ### A raw write (R173) -/

section RawWrite
variable {s t : State} {a v : Word}

theorem wrreg_geometry (h : exec (.wrreg a v) s = .next t) : t.geom = s.geom ∧ t.saved = s.saved := by
  cases hd : decodeAddress s.cfg a with
  | error f => rw [exec_wrreg_of_decode_error hd] at h; cases h; exact ⟨rfl, rfl⟩
  | ok k =>
    cases hc : checkWrite (descriptor s.cfg k) a v with
    | error f => rw [exec_wrreg_of_check_error hd hc] at h; cases h; exact ⟨rfl, rfl⟩
    | ok _ => rw [exec_wrreg_of_check_ok hd hc] at h; cases h; exact ⟨rfl, rfl⟩

theorem setps_geometry (h : exec (.setps a v) s = .next t) : t.geom = s.geom ∧ t.saved = s.saved := by
  cases hd : decodeId s.cfg a with
  | error f => rw [exec_setps_of_decode_error hd] at h; cases h; exact ⟨rfl, rfl⟩
  | ok f => rw [exec_setps_of_decoded hd] at h; cases h; exact ⟨rfl, rfl⟩

end RawWrite

/-! ### The mode and the geometry of a completed `CFGSEQ` -/

theorem mode_commitPlan {i : Instr} {s : State} {p : SequencePlan}
    (h : sequencePlan s i = some (.ok p)) (hc : s.cfg.layoutOk) (hregs : 0 < s.regs.length) :
    (commitPlan s p).mode = targetMode i := by
  obtain ⟨⟨t, hnew⟩, -⟩ := sequencePlan_ok_cases h
  rw [State.mode, reg_commitPlan_zero s p hregs, hnew]
  exact modeOf_enterMode hc (targetMode_fits i) t (s.reg 0)

section Leaves
variable {i : Instr} {s : State} {p : SequencePlan} (h : sequencePlan s i = some (.ok p))
include h

theorem leavesStreak_of_plan (hi : targetMode i ≠ streakCamera) : LeavesStreak s p := by
  obtain ⟨-, ⟨ps, rfl, -⟩ | ⟨-, hleaves⟩⟩ := sequencePlan_ok_cases h
  · exact absurd rfl hi
  · exact hleaves

theorem entersStreak_of_plan {ps : List S64} (hi : i = .cfgseqStreak ps) : EntersStreak s ps p := by
  obtain ⟨-, ⟨qs, hqs, henters⟩ | ⟨hne, -⟩⟩ := sequencePlan_ok_cases h
  · cases hi
    cases hqs
    exact henters
  · exact absurd (hi ▸ rfl) hne

/-- The row of R173's table for a command that does not enter streak-camera mode. -/
theorem commitPlan_leaves (hc : s.cfg.layoutOk) (hregs : 0 < s.regs.length)
    (hi : targetMode i ≠ streakCamera) :
    (commitPlan s p).mode = targetMode i ∧ (commitPlan s p).saved = s.saved ∧
      (commitPlan s p).geom = leftGeometry s := by
  obtain ⟨hgeom, hsaved⟩ := commitPlan_geometry_of_leaves (leavesStreak_of_plan h hi)
  exact ⟨mode_commitPlan h hc hregs, hsaved, hgeom⟩

end Leaves

theorem targetMode_of_frameBased {i : Instr} (h : isFrameBased i = true) :
    targetMode i = fullFrame := by
  unfold targetMode
  split
  · cases h
  · cases h
  · rfl

theorem legal_layoutOk {c : Config} (hc : c.legal) : c.layoutOk := by
  obtain ⟨-, -, -, hlayout, -⟩ := hc
  exact hlayout

/-- A legal configuration has at least the seven architected registers, each with a `u32` maximum. -/
theorem descriptor_maximum_le {c : Config} (hc : c.legal) {k : Nat} (hk : k < 7) :
    (descriptor c k).maximum ≤ 4294967295 := by
  obtain ⟨-, hdesc, ⟨hnames, -⟩, -⟩ := hc
  have hlen : 7 ≤ c.desc.length := by
    have := congrArg List.length hnames
    simp [Config.architected] at this
    omega
  have hmem : descriptor c k ∈ c.desc := by
    rw [descriptor, List.getD_eq_getElem _ _ (by omega)]
    exact List.getElem_mem _
  obtain ⟨-, -, hmax, -⟩ := hdesc _ hmem
  exact hmax

/-- The line count passed the range of register 4, so neither register 4 nor the frame size wraps. -/
theorem streak_framesizeV {s : State} {ps : List S64} {p : SequencePlan} (h : EntersStreak s ps p)
    (hc : s.cfg.legal) (hregs : 4 < s.regs.length) :
    (commitPlan s p).geom.framesizeV.toInt = ((commitPlan s p).reg 4).toNat / 2 := by
  obtain ⟨-, -, lines, hlines, hbranch⟩ := h
  obtain ⟨-, hmin, hmax⟩ := (streakLines_ok _ _ _).1 hlines
  have hlimit := descriptor_maximum_le hc (k := 4) (by decide)
  rw [reg_commitPlan_streakLines s p hbranch hregs, commitPlan_geom, hbranch, branchGeometry,
    floorDiv, BitVec.toInt_ofInt_eq_self (by decide) (by omega) (by omega), BitVec.toNat_ofInt]
  omega

/-- The row of R173's table for `CFGSEQ.STREAK`. -/
theorem commitPlan_enters {ps : List S64} {s : State} {p : SequencePlan}
    (h : sequencePlan s (.cfgseqStreak ps) = some (.ok p)) (hc : s.cfg.legal)
    (hregs : 4 < s.regs.length) :
    (commitPlan s p).mode = streakCamera ∧
      ((commitPlan s p).saved = if s.mode = streakCamera then s.saved else s.geom) ∧
      (commitPlan s p).geom = { s.geom with framesizeV := (commitPlan s p).geom.framesizeV } ∧
      (commitPlan s p).geom.framesizeV.toInt = ((commitPlan s p).reg 4).toNat / 2 := by
  have henters := entersStreak_of_plan h rfl
  obtain ⟨hgeom, hsaved⟩ := commitPlan_geometry_of_enters henters
  exact ⟨mode_commitPlan h (legal_layoutOk hc) (by omega), hsaved, hgeom,
    streak_framesizeV henters hc hregs⟩

/-! ### The statement -/

/-- Settles O31: a failed command has only responded; a completed one has committed a plan, and the
response to it touches neither the mode nor the geometry. -/
theorem readoutModeMachine : Obligations.ReadoutModeMachine := by
  refine ⟨fun s t a v h => h.elim wrreg_geometry setps_geometry, fun i s t hc hregs hi h => ?_⟩
  rcases exec_sequence_cases hi h with ⟨p, hp, rfl⟩ | ⟨f, -, rfl⟩
  · have hleaves := commitPlan_leaves hp (legal_layoutOk hc) (by omega)
    refine ⟨fun hfailed => absurd (completedOk_complete s _ 0 rfl) hfailed,
      fun _ => ⟨fun hframe => ?frameBased, fun ps hstreak => ?streak, fun ps hsub => ?subimage⟩⟩
    case frameBased =>
      rw [targetMode_of_frameBased hframe] at hleaves
      exact hleaves (by decide)
    case streak =>
      subst hstreak
      exact commitPlan_enters hp hc (by omega)
    case subimage =>
      subst hsub
      exact hleaves (by simp [targetMode, subImage, streakCamera])
  · exact ⟨fun _ => ⟨rfl, rfl, rfl⟩, fun hok => absurd hok (not_completedOk_raise s f)⟩

end Sys2Proof.Machine
end

