-- ==== Sys2Proof/Proofs/StreakImage.lean ====
section
/-!
PROOFS. `DESCR` in streak-camera mode (`43_descramble.md` R196): where the moves of a group store, that
no two moves store to the same sample, when the command completes, and from these the statement.
-/

namespace Sys2Proof.Machine

/-! ### The destinations of the streak-camera mapping -/

section Destinations
variable {w i j : Nat}

/-- The four places of a group on its output line. -/
theorem mem_map_dst_streakGroup {a : Nat} :
    a ∈ (streakGroup w i j).map Move.dst ↔
      a = i * w + j ∨ a = i * w + (w / 2 - 1 - j) ∨ a = i * w + w / 2 + j ∨
        a = i * w + w / 2 + (w / 2 - 1 - j) := by
  simp [streakGroup]

/-- The four moves of a group, one by one. -/
theorem forall_mem_streakGroup (p : Nat → Nat → Prop) :
    (∀ m ∈ streakGroup w i j, p m.dst m.src) ↔
      p (i * w + j) (i * 4 * w + 16 * j + 2) ∧
        p (i * w + (w / 2 - 1 - j)) (i * 4 * w + 16 * j + 3) ∧
        p (i * w + w / 2 + j) (i * 4 * w + 16 * j + 1) ∧
        p (i * w + w / 2 + (w / 2 - 1 - j)) (i * 4 * w + 16 * j) := by
  simp [streakGroup]

/-- The output line of a destination is its quotient by the line width. -/
theorem dst_div_of_mem_streakGroup {a : Nat} (hj : j < w / 2 / 2)
    (ha : a ∈ (streakGroup w i j).map Move.dst) : a / w = i := by
  obtain ⟨c, hc, rfl⟩ : ∃ c, c < w ∧ a = c + i * w := by
    refine ⟨a - i * w, ?_⟩
    rw [mem_map_dst_streakGroup] at ha
    omega
  rw [Nat.add_mul_div_right _ _ (by omega), Nat.div_eq_of_lt hc, Nat.zero_add]

variable (hw : w % 4 = 0)
include hw

/-- Each quarter of the line takes one sample of the group. -/
theorem nodup_map_dst_streakGroup (hj : j < w / 2 / 2) :
    ((streakGroup w i j).map Move.dst).Nodup := by
  simp only [streakGroup, List.map_cons, List.map_nil, List.nodup_cons, List.mem_cons,
    List.not_mem_nil, List.nodup_nil, not_or, not_false_eq_true, or_false, and_true]
  omega

/-- Two groups of one line share no place: in each quarter of the line the place determines `j`. -/
theorem disjoint_map_dst_streakGroup {k : Nat} (hj : j < w / 2 / 2) (hk : k < w / 2 / 2)
    (hjk : j ≠ k) :
    List.Disjoint ((streakGroup w i j).map Move.dst) ((streakGroup w i k).map Move.dst) := by
  intro a haj hak
  rw [mem_map_dst_streakGroup] at haj hak
  omega

/-- Different lines are told apart by the quotient, the groups of one line by the place in it. -/
theorem nodup_map_dst_streakMoves (v : Nat) : ((streakMoves w v).map Move.dst).Nodup := by
  simp only [streakMoves, List.map_flatMap]
  refine List.nodup_flatMap.2 ⟨fun i _ => List.nodup_flatMap.2 ⟨fun j hj => ?group, ?groups⟩,
    ?lines⟩
  case group => exact nodup_map_dst_streakGroup hw (List.mem_range.1 hj)
  case groups =>
    refine List.nodup_range.imp_of_mem fun hj hk hjk => ?_
    exact disjoint_map_dst_streakGroup hw (List.mem_range.1 hj) (List.mem_range.1 hk) hjk
  case lines =>
    refine List.nodup_range.imp fun hii a ha ha' => hii ?_
    obtain ⟨j, hj, ha⟩ := List.mem_flatMap.1 ha
    obtain ⟨k, hk, ha'⟩ := List.mem_flatMap.1 ha'
    rw [← dst_div_of_mem_streakGroup (List.mem_range.1 hj) ha,
      dst_div_of_mem_streakGroup (List.mem_range.1 hk) ha']

end Destinations

/-- The moves stay inside the `v / 2` output lines. -/
theorem dst_lt_of_mem_streakMoves {w v : Nat} {m : Move} (hm : m ∈ streakMoves w v) :
    m.dst < v / 2 * w := by
  obtain ⟨i, hi, j, hj, hm⟩ := (mem_streakMoves w v m).1 hm
  rw [← Nat.div_lt_iff_lt_mul (by omega),
    dst_div_of_mem_streakGroup hj (List.mem_map_of_mem hm)]
  exact hi

/-! ### The image of the streak-camera mapping -/

section Image
variable (s : State) {w v : Nat}

/-- A group's destination holds the raw sample its move read. -/
theorem readSample_applyMoves_streakMoves (hw : w % 4 = 0) {i j : Nat} (hi : i < v / 2)
    (hj : j < w / 2 / 2) {m : Move} (hm : m ∈ streakGroup w i j) :
    (applyMoves s false (streakMoves w v)).readSample .img s.epoch m.dst = s.rawSample m.src :=
  applyMoves_sample s false _ .img s.epoch (nodup_map_dst_streakMoves hw v) m
    ((mem_streakMoves w v m).2 ⟨i, hi, j, hj, hm⟩)

theorem readByte_applyMoves_streakMoves {a : Nat} (ha : 2 * (v / 2 * w) ≤ a) :
    (applyMoves s false (streakMoves w v)).readByte a = s.img.readByte a := by
  refine applyMoves_readByte_other s false _ a fun m hm => ?_
  have hlt := dst_lt_of_mem_streakMoves hm
  omega

end Image

/-! ### The statement -/

/-- The checks of R192, stated in `Z`, on a frame size given in `Nat`. -/
theorem checkStreak_natCast {c : Config} {w v : Nat} (hw : 0 < w) (hv : 0 < v) (h4 : w % 4 = 0)
    (hraw : v / 2 * 4 * w ≤ c.rawLen) (himg : v / 2 * w ≤ c.imgLen) :
    checkStreak c w v = .ok () := by
  rw [checkStreak_ok, floorDiv_eq_natDiv (by omega) (by omega)]
  refine ⟨by omega, by omega, by omega, ?_, ?_⟩
  · exact_mod_cast hraw
  · exact_mod_cast himg

theorem exec_descr_streak {s : State} {w v : Nat} (hmodel : s.cfg.modelId ≠ .pccd16080)
    (hmode : s.mode = streakCamera) (hh : s.geom.framesizeH.toInt = w)
    (hvs : s.geom.framesizeV.toInt = v) (hcheck : checkStreak s.cfg w v = .ok ()) :
    exec .descr s =
      .next ((storeImage s false (streakMoves w v) ((v / 2 : Nat) : Int) w).complete 0) := by
  have hrun : descramble s false =
      .ok (storeImage s false (streakMoves w v) ((v / 2 : Nat) : Int) w) := by
    refine (descramble_ok s _ false).2 ⟨rfl, .inr ⟨hmodel, hmode, rfl, ?_, ?_⟩⟩
    · rw [hh, hvs, hcheck]
    · rw [hh, hvs, floorDiv_eq_natDiv (by omega) (by omega)]
      rfl
  exact (congrArg (finish s) hrun).trans (finish_ok s _)

/-- Settles O36: the checks pass, each of a group's four places holds the sample its move read because
no two moves store to the same place, and all places lie inside the output lines. -/
theorem descrWritesStreakImage : Obligations.DescrWritesStreakImage := by
  intro s w v hmodel hmode hh hvs hw hv h4 hraw himg
  refine ⟨_, exec_descr_streak hmodel hmode hh hvs (checkStreak_natCast hw hv h4 hraw himg),
    fun i j hi hj => ?samples, fun a ha => readByte_applyMoves_streakMoves s ha, ?imgMeta, rfl, rfl⟩
  case samples =>
    exact (forall_mem_streakGroup fun dst src =>
      (applyMoves s false (streakMoves w v)).readSample .img s.epoch dst = s.rawSample src).1
      fun m hm => readSample_applyMoves_streakMoves s h4 hi hj hm
  case imgMeta =>
    simp only [complete_imgMeta, storeImage, BitVec.ofInt_natCast]

end Sys2Proof.Machine
end

/-!
PROOFS. Failed commands (`60_exceptions.md` R236): every command ends in one of two ways, with a response
that says `OK` or with `State.raise`, which touches the response port alone; and from this the statement.
-/

namespace Sys2Proof.Machine

section TwoEnds
variable {s t : State}

/-! ### The two ways a command ends -/

theorem finish_completedOk_or_raise {r : Except Failure State}
    (hsent : ∀ u, r = .ok u → u.sent = s.sent) (h : finish s r = .next t) :
    completedOk s t ∨ ∃ f, t = s.raise f := by
  rcases finish_cases s t r h with ⟨u, hu, rfl⟩ | ⟨f, -, hf⟩
  · exact .inl (completedOk_complete s u 0 (hsent u hu))
  · exact .inr ⟨f, hf⟩

theorem finishRead_completedOk_or_raise {r : Except Failure Word} (h : finishRead s r = .next t) :
    completedOk s t ∨ ∃ f, t = s.raise f := by
  rcases finishRead_cases s t r h with ⟨d, -, rfl⟩ | ⟨f, -, hf⟩
  · exact .inl (completedOk_complete s s d rfl)
  · exact .inr ⟨f, hf⟩

theorem exec_sequence_completedOk_or_raise {i : Instr} (hi : isSequence i = true)
    (h : exec i s = .next t) : completedOk s t ∨ ∃ f, t = s.raise f := by
  rcases exec_sequence_cases hi h with ⟨p, -, rfl⟩ | ⟨f, -, hf⟩
  · exact .inl (completedOk_complete s _ 0 (commitPlan_sent s p))
  · exact .inr ⟨f, hf⟩

/-- An image is stored before the response is sent. -/
theorem descramble_sent {u : State} {lin : Bool} (h : descramble s lin = .ok u) : u.sent = s.sent := by
  obtain ⟨-, ⟨-, -, -, rfl⟩ | ⟨-, -, -, -, rfl⟩⟩ := (descramble_ok s u lin).1 h
  · exact storeImage_sent ..
  · exact storeImage_sent ..

/-- Every command ends with a response that says `OK`, or raises and does nothing else. What a command
does before it completes leaves the response port alone. -/
theorem exec_completedOk_or_raise {i : Instr} (h : exec i s = .next t) :
    completedOk s t ∨ ∃ f, t = s.raise f := by
  cases i with
  | rdreg a => exact finishRead_completedOk_or_raise h
  | getps a => exact finishRead_completedOk_or_raise h
  | wrreg a v =>
    refine finish_completedOk_or_raise (fun u hu => ?_) h
    obtain ⟨k, -, hstore⟩ := (bind_eq_ok _ _ _).1 hu
    obtain ⟨-, -, hset⟩ := (bind_eq_ok _ _ _).1 hstore
    cases hset
    exact setReg_sent s k v
  | setps a v =>
    refine finish_completedOk_or_raise (fun u hu => ?_) h
    obtain ⟨f, -, hset⟩ := (bind_eq_ok _ _ _).1 hu
    cases hset
    exact setReg_sent s 0 _
  | descr => exact finish_completedOk_or_raise (fun _ => descramble_sent) h
  | descrLin => exact finish_completedOk_or_raise (fun _ => descramble_sent) h
  | _ => exact exec_sequence_completedOk_or_raise rfl h

/-! ### Only the response port differs -/

theorem raise_eq_with_sent (s : State) (f : Failure) :
    s.raise f = { s with sent := (s.raise f).sent } := rfl

theorem answerReject_eq_with_sent {hd : Word} {r : Reject} (h : answerReject hd r s = .next t) :
    t = { s with sent := t.sent } := by
  by_cases hr : r = .incomplete
  · subst hr
    cases h
    rfl
  · obtain ⟨f, rfl⟩ := answerReject_cases hd r s t hr h
    exact raise_eq_with_sent s f

end TwoEnds

/-- Settles O43: a command that did not complete `OK` raised, and a rejected frame raises or waits. -/
theorem failedCommandChangesNothing : Obligations.FailedCommandChangesNothing := by
  refine ⟨fun i s t h hfailed => ?command, fun hd r s t h => answerReject_eq_with_sent h⟩
  case command =>
    obtain ⟨f, rfl⟩ := (exec_completedOk_or_raise h).resolve_left hfailed
    exact raise_eq_with_sent s f

end Sys2Proof.Machine

/-!
PROOFS. The encoder and the decoder are inverse (`30_encoding.md` R71 to R80): the frame of each format
decodes to its command whatever follows, every frame the decoder accepts is the frame of its command, and
what this means for a frame sent on the command port (R70, R77).
-/

namespace Sys2Proof

/-! ### From a command to its frame and back -/

/-- R79: a type that has a command encodes as a `P` frame of that type. -/
theorem encode_of_sequenceOfType {t : Byte} {ps : List S64} {i : Instr}
    (h : sequenceOfType t ps = some i) :
    encode i = encodeSequence t ps ∧ i.wellFormed = decide (paramCountOk ps) := by
  have code {k : Nat} (hk : t.toNat = k) : t = BitVec.ofNat 8 k := by
    rw [← hk, BitVec.ofNat_toNat, BitVec.setWidth_eq]
  unfold sequenceOfType at h
  split at h <;> cases h
  all_goals
    next hk => rw [code hk]; exact ⟨rfl, rfl⟩

theorem decode_encodeSequence {t : Byte} {ps : List S64} {i : Instr} (hps : paramCountOk ps)
    (h : sequenceOfType t ps = some i) (rest : List Word) :
    decode (encodeSequence t ps ++ rest) = .ok i := by
  have hnw := headerNw_sequence (t := t) hps
  have hlen := length_wordsOfParams ps
  have hwhole : headerNw (header 0x05 t (BitVec.ofNat 8 (2 * ps.length))) ≤
      (wordsOfParams ps ++ rest).length := by
    rw [hnw, List.length_append, hlen]
    exact Nat.le_add_right _ _
  rw [encodeSequence, List.cons_append, decode_of_whole hwhole, decodeFrame_sequence hps, hnw,
    List.take_left' hlen]
  simp [commandOf, paramsOfWords_wordsOfParams, h]

/-- Settles O5: the header passes the decoder's three checks, the operands are the words it announces,
and each type's parameters are those its words carry. -/
theorem decodeOfEncode : Obligations.DecodeOfEncode := by
  intro i rest hwf
  cases i with
  | rdreg a => exact decode_of_whole (rest := a :: rest) (Nat.le_add_left 1 _)
  | wrreg a v => exact decode_of_whole (rest := a :: v :: rest) (Nat.le_add_left 2 _)
  | getps a => exact decode_of_whole (rest := a :: rest) (Nat.le_add_left 1 _)
  | setps a v => exact decode_of_whole (rest := a :: v :: rest) (Nat.le_add_left 2 _)
  | descr => exact decode_of_whole (rest := rest) (Nat.zero_le _)
  | descrLin => exact decode_of_whole (rest := rest) (Nat.zero_le _)
  | _ ps => exact decode_encodeSequence (of_decide_eq_true hwf) rfl rest

/-- Settles O7: each of the worked frames is the frame of the command it stands for. -/
theorem workedEncodingsDecode : Obligations.WorkedEncodingsDecode :=
  ⟨decodeOfEncode (.rdreg 100003) [] rfl, decodeOfEncode (.wrreg 100003 40) [] rfl,
    decodeOfEncode (.getps 200001) [] rfl, decodeOfEncode (.setps 200004 1) [] rfl,
    decodeOfEncode (.cfgseqOneshot [500000000]) [] rfl,
    decodeOfEncode (.cfgseqOneshot [0xFFFFFFFFFFF0BDC0]) [] rfl,
    decodeOfEncode (.cfgseqMultiframe [10000000000, 10000000, 20000000]) [] rfl,
    decodeOfEncode .descr [] rfl, decodeOfEncode .descrLin [] rfl⟩

/-! ### From an accepted frame to its command and back -/

/-- R78: a frame the decoder accepts has passed the three checks. -/
theorem decodeFrame_ok {h : Word} {ops : List Word} {i : Instr} (hd : decodeFrame h ops = .ok i) :
    opcodeListed h ≠ false ∧ reservedBitsZero h ≠ false ∧ lengthAllowed h ≠ false ∧
      commandOf h ops = .ok i := by
  by_cases hl : opcodeListed h = false
  · rw [decodeFrame_badOpcode ops hl] at hd
    cases hd
  by_cases hr : reservedBitsZero h = false
  · rw [decodeFrame_badReservedBits ops hl hr] at hd
    cases hd
  by_cases hn : lengthAllowed h = false
  · rw [decodeFrame_badLength ops hl hr hn] at hd
    cases hd
  exact ⟨hl, hr, hn, (decodeFrame_eq_commandOf ops hl hr hn).symm.trans hd⟩

theorem decode_ok {ws : List Word} {i : Instr} (hd : decode ws = .ok i) :
    ∃ h rest, ws = h :: rest ∧ headerNw h ≤ rest.length ∧
      decodeFrame h (rest.take (headerNw h)) = .ok i := by
  cases ws with
  | nil => cases hd
  | cons h rest =>
    have hwhole : headerNw h ≤ rest.length := by
      by_contra hshort
      rw [decode, if_pos (not_le.1 hshort)] at hd
      cases hd
    exact ⟨h, rest, rfl, hwhole, (decode_of_whole hwhole).symm.trans hd⟩

/-- A header is known by its fields, once `RSV` is zero. -/
theorem eq_header {h : Word} {opc sub : Nat} (hr : (headerRsv h).toNat = 0)
    (ho : (headerOpc h).toNat = opc) (hs : (headerSub h).toNat = sub) :
    h = header (BitVec.ofNat 8 opc) (BitVec.ofNat 8 sub) (BitVec.ofNat 8 (headerNw h)) := by
  rw [← ho, ← hs, BitVec.ofNat_toNat, BitVec.ofNat_toNat, BitVec.setWidth_eq, BitVec.setWidth_eq,
    header_eta h (BitVec.eq_of_toNat_eq hr)]

section Accepted
variable {h : Word} {ops : List Word} (hrsv : (headerRsv h).toNat = 0)
  (hops : ops.length = headerNw h)
include hrsv hops

/-- A frame of one operand whose `SUB` is zero. -/
theorem eq_frame_one {opc : Nat} (ho : (headerOpc h).toNat = opc) (hs : (headerSub h).toNat = 0)
    (hnw : headerNw h = 1) : ∃ a, ops = [a] ∧ h :: ops = [header (BitVec.ofNat 8 opc) 0 1, a] := by
  obtain ⟨a, rfl⟩ := List.length_eq_one_iff.1 (hops.trans hnw)
  refine ⟨a, rfl, ?_⟩
  rw [eq_header hrsv ho hs, hnw]
  rfl

/-- A frame of two operands whose `SUB` is zero. -/
theorem eq_frame_two {opc : Nat} (ho : (headerOpc h).toNat = opc) (hs : (headerSub h).toNat = 0)
    (hnw : headerNw h = 2) :
    ∃ a v, ops = [a, v] ∧ h :: ops = [header (BitVec.ofNat 8 opc) 0 2, a, v] := by
  obtain ⟨a, v, rfl⟩ := List.length_eq_two.1 (hops.trans hnw)
  refine ⟨a, v, rfl, ?_⟩
  rw [eq_header hrsv ho hs, hnw]
  rfl

/-- R79: an even number of operand words carries all their bits into the parameters. -/
theorem eq_encodeSequence (ho : (headerOpc h).toNat = 5) (heven : headerNw h % 2 = 0) :
    h :: ops = encodeSequence (headerSub h) (paramsOfWords ops) := by
  have hcount := length_paramsOfWords ops
  have hwords : 2 * (paramsOfWords ops).length = headerNw h := by omega
  have hheader := eq_header hrsv ho rfl
  rw [BitVec.ofNat_toNat, BitVec.setWidth_eq] at hheader
  rw [encodeSequence, wordsOfParams_paramsOfWords ops (by omega), hwords]
  exact congrArg (· :: ops) hheader

/-- R80: `SUB` is the `LIN` bit. -/
theorem encode_descr_frame (ho : (headerOpc h).toNat = 6) (hs : (headerSub h).toNat < 2)
    (hnw : headerNw h = 0) :
    encode (if headerSub h = 0 then .descr else .descrLin) = h :: ops := by
  obtain rfl : ops = [] := List.length_eq_zero_iff.1 (hops.trans hnw)
  split
  · next hzero =>
    rw [eq_header hrsv ho (congrArg BitVec.toNat hzero), hnw]
    rfl
  · next hne =>
    have hone : (headerSub h).toNat = 1 := by
      have : (headerSub h).toNat ≠ 0 := fun hzero => hne (BitVec.eq_of_toNat_eq hzero)
      omega
    rw [eq_header hrsv ho hone, hnw]
    rfl

end Accepted

/-- R75, R79: the command of a frame that passed the checks is well formed and has that frame. -/
theorem encode_commandOf {h : Word} {ops : List Word} {i : Instr} (hl : opcodeListed h ≠ false)
    (hr : reservedBitsZero h ≠ false) (hn : lengthAllowed h ≠ false) (hops : ops.length = headerNw h)
    (hc : commandOf h ops = .ok i) : i.wellFormed = true ∧ encode i = h :: ops := by
  rw [Ne, reservedBitsZero_eq_false_iff hl] at hr
  rw [Ne, lengthAllowed_eq_false_iff hl] at hn
  have hrsv : (headerRsv h).toNat = 0 := by omega
  unfold commandOf at hc
  split at hc
  case h_1 ho =>
    obtain ⟨a, rfl, hframe⟩ := eq_frame_one hrsv hops ho (by omega) (by omega)
    cases hc
    exact ⟨rfl, hframe.symm⟩
  case h_2 ho =>
    obtain ⟨a, v, rfl, hframe⟩ := eq_frame_two hrsv hops ho (by omega) (by omega)
    cases hc
    exact ⟨rfl, hframe.symm⟩
  case h_3 ho =>
    obtain ⟨a, rfl, hframe⟩ := eq_frame_one hrsv hops ho (by omega) (by omega)
    cases hc
    exact ⟨rfl, hframe.symm⟩
  case h_4 ho =>
    obtain ⟨a, v, rfl, hframe⟩ := eq_frame_two hrsv hops ho (by omega) (by omega)
    cases hc
    exact ⟨rfl, hframe.symm⟩
  case h_5 ho =>
    have hcount := length_paramsOfWords ops
    split at hc
    case h_1 j hj =>
      cases hc
      obtain ⟨hencode, hwf⟩ := encode_of_sequenceOfType hj
      rw [eq_encodeSequence hrsv hops ho (by omega)]
      exact ⟨hwf.trans (decide_eq_true ⟨by omega, by omega⟩), hencode⟩
    case h_2 => cases hc
  case h_6 ho =>
    have hframe := encode_descr_frame hrsv hops ho (by omega) (by omega)
    split at hc
    · next hzero =>
      cases hc
      rw [if_pos hzero] at hframe
      exact ⟨rfl, hframe⟩
    · next hne =>
      cases hc
      rw [if_neg hne] at hframe
      exact ⟨rfl, hframe⟩
  case h_7 => cases hc

/-- Settles O6: an accepted frame is whole and has passed the checks, so its command has it as its
frame, the header as well as the operands. -/
theorem encodeOfDecode : Obligations.EncodeOfDecode := by
  intro ws i hd
  obtain ⟨h, rest, rfl, hwhole, hframe⟩ := decode_ok hd
  obtain ⟨hl, hr, hn, hc⟩ := decodeFrame_ok hframe
  obtain ⟨hwf, hencode⟩ := encode_commandOf hl hr hn (List.length_take_of_le hwhole) hc
  refine ⟨hwf, hencode.trans ?_⟩
  rw [Machine.pendingLength, frameLength, Nat.add_comm, List.take_succ_cons]

namespace Machine

/-! ### Frames on the command port -/

/-- Settles O10: `State.consume` is the state the statement writes out. -/
theorem stepRunsDecodedCommand : Obligations.StepRunsDecodedCommand := by
  intro s i hd
  rw [step, hd]
  rfl

/-- What follows a frame does not change where it ends. -/
theorem pendingLength_encode_append {i : Instr} (hwf : i.wellFormed = true) (rest : List Word) :
    pendingLength (encode i ++ rest) = (encode i).length := by
  cases i with
  | rdreg a => rfl
  | wrreg a v => rfl
  | getps a => rfl
  | setps a v => rfl
  | descr => rfl
  | descrLin => rfl
  | _ ps => exact Laws.encodeSequence_announced _ ps hwf

/-- Settles O11: the frame is what is pending, so it decodes to its command, and exactly its own words
are taken off the input. -/
theorem sentFrameRunsNext : Obligations.SentFrameRunsNext := by
  intro s i hwf
  have hpending : State.pendingWords
      { s with rx := [], input := (encode i).map HostEvent.word ++ s.input } =
        encode i ++ leadingWords s.input := leadingWords_map_word (encode i) s.input
  have hdecode := decodeOfEncode i (leadingWords s.input) hwf
  rw [← hpending] at hdecode
  rw [stepRunsDecodedCommand _ i hdecode, hpending, pendingLength_encode_append hwf]
  simp

theorem leadingWords_words (ws : List Word) : leadingWords (ws.map HostEvent.word) = ws := by
  simpa [leadingWords] using leadingWords_map_word ws []

theorem step_of_incomplete {s : State} (h : decode s.pendingWords = .error .incomplete) :
    step s = stepPort s := by
  rw [step, h]

/-- With nothing more sent the block waits. -/
theorem step_waits {s : State} (hin : s.input = []) (h : decode s.rx = .error .incomplete) :
    step s = .next s := by
  have hpending : s.pendingWords = s.rx := by simp [State.pendingWords, hin, leadingWords]
  rw [step_of_incomplete (hpending ▸ h), stepPort, hin]

/-- Settles O12: the words sent are all received, and then nothing is left to do. -/
theorem unfinishedFrameWaits : Obligations.UnfinishedFrameWaits := by
  intro s ws hin h
  refine ⟨?_, step_waits rfl h⟩
  have hpending : s.pendingWords = s.rx ++ ws := by rw [State.pendingWords, hin, leadingWords_words]
  cases ws with
  | nil =>
    have hnone : s.input = [] := hin
    rw [List.append_nil] at h ⊢
    rw [step_waits hnone h, ← hnone]
  | cons w ws =>
    rw [step_of_incomplete (hpending ▸ h), stepPort, hin]
    simp [State.receive, hpending, hin, leadingWords_words]

end Machine
end Sys2Proof

/-!
PROOFS. Responses and the ends of a command: the fields of a response's first word
(`30_encoding.md` R76), that every response the block sends is whole (`60_exceptions.md` R230, R231,
R239, R240), that a command answers once whatever stands at its ports (R237), and, said once for all
invariants, everything a command can commit.
-/

namespace Sys2Proof.Machine

/-! ### The fields of word 0 (`30_encoding.md` R76) -/

section Word0
variable (m : DetectorModel) (status cause : Nat)

theorem responseWord0_model :
    (responseWord0 m status cause).extractLsb' 8 8 = BitVec.ofNat 8 (modelNumber m) := by
  refine BitVec.eq_of_getLsbD_eq fun i hi => ?_
  rw [responseWord0, BitVec.getLsbD_extractLsb', BitVec.getLsbD_append, BitVec.getLsbD_append]
  simp [hi, show 8 + i < 16 by omega]

theorem responseWord0_cause :
    (responseWord0 m status cause).extractLsb' 16 8 = BitVec.ofNat 8 cause := by
  refine BitVec.eq_of_getLsbD_eq fun i hi => ?_
  rw [responseWord0, BitVec.getLsbD_extractLsb', BitVec.getLsbD_append, BitVec.getLsbD_append,
    BitVec.getLsbD_append]
  simp [hi]

theorem responseWord0_unused : (responseWord0 m status cause).extractLsb' 24 8 = 0 := by
  refine BitVec.eq_of_getLsbD_eq fun i hi => ?_
  rw [responseWord0, BitVec.getLsbD_extractLsb', BitVec.getLsbD_append, BitVec.getLsbD_append,
    BitVec.getLsbD_append]
  simp [hi, show ¬24 + i < 16 by omega, show ¬24 + i - 16 < 8 by omega]

end Word0

theorem causeCode_lt (c : Cause) : causeCode c < 256 := by
  cases c <;> decide

/-- Settles O45, one row of the table for each cause. -/
theorem causesAreNumbered : Obligations.CausesAreNumbered := by
  intro c
  cases c <;> decide

/-! ### Whole responses (R230, R239, R240) -/

/-- No two statuses have one number. -/
theorem statusCode_injective : Function.Injective statusCode := by
  intro a b h
  cases a <;> cases b <;> simp [statusCode] at h ⊢

theorem responseWhole_of_word0 (m : DetectorModel) {st : Status} (cause : Nat) {rest : List Word}
    (hlen : rest.length = 9) (htimedOut : st ≠ .timedOut) (hunsupported : st ≠ .unsupported) :
    responseWhole m (responseWord0 m (statusCode st) cause :: rest) := by
  have hstatus := responseStatus_word0 m st cause rest
  refine ⟨by simp [hlen], ?_, ?_, ?_, responseWord0_model m _ cause, responseWord0_unused m _ cause⟩
  · rw [hstatus]
    exact statusCode_le st
  · rw [hstatus]
    exact statusCode_injective.ne htimedOut
  · rw [hstatus]
    exact statusCode_injective.ne hunsupported

theorem responseWhole_okResponse (m : DetectorModel) (d : Word) : responseWhole m (okResponse m d) :=
  responseWhole_of_word0 m 0 rfl (by decide) (by decide)

/-- No cause belongs to a status that is never sent. -/
theorem causeStatus_sent (c : Cause) : causeStatus c ≠ .timedOut ∧ causeStatus c ≠ .unsupported := by
  cases c <;> decide

theorem responseWhole_errorResponse (m : DetectorModel) (f : Failure) :
    responseWhole m (errorResponse m f) := by
  obtain ⟨htimedOut, hunsupported⟩ := causeStatus_sent f.cause
  exact responseWhole_of_word0 m _ rfl htimedOut hunsupported

/-! ### The values of an error response (R231, R232) -/

theorem responseStatus_errorResponse (m : DetectorModel) (f : Failure) :
    responseStatus (errorResponse m f) = statusCode (causeStatus f.cause) :=
  responseStatus_word0 m _ _ _

theorem responseCause_errorResponse (m : DetectorModel) (f : Failure) :
    responseCause (errorResponse m f) = causeCode f.cause := by
  have hfield := responseWord0_cause m (statusCode (causeStatus f.cause)) (causeCode f.cause)
  have hlt := causeCode_lt f.cause
  calc responseCause (errorResponse m f) = (BitVec.ofNat 8 (causeCode f.cause)).toNat :=
        congrArg BitVec.toNat hfield
    _ = causeCode f.cause := by rw [BitVec.toNat_ofNat, Nat.mod_eq_of_lt hlt]

theorem toInt_saturateS64 (z : Int) : (saturateS64 z).toInt = max s64Min (min s64Max z) := by
  rw [saturateS64, BitVec.toInt_ofInt_eq_self (by decide)]
  · simp [s64Min]
  · simp [s64Min, s64Max]

/-- Settles O46: the first word has the status and the cause, and each value's two words are those of
its saturation. -/
theorem errorResponseCarriesItsCause : Obligations.ErrorResponseCarriesItsCause := by
  intro m f
  refine ⟨responseStatus_errorResponse m f, responseCause_errorResponse m f, rfl, ?_, rfl,
    paramOfWords_wordsOfParam _, paramOfWords_wordsOfParam _, paramOfWords_wordsOfParam _,
    paramOfWords_wordsOfParam _, toInt_saturateS64 f.e0⟩
  rw [responseStatus_errorResponse]
  exact statusCode_causeStatus_ne_ok f.cause

/-! ### The ports -/

/-- What stands at the ports of the block: what it sent, the words received and still to be received,
and what the environment read (assumption logs 3 and 6). -/
structure Ports where
  sent : List (List Word)
  rx : List Word
  input : List HostEvent
  answers : List EnvAnswer

/-- The same block with other ports. -/
def State.withPorts (s : State) (p : Ports) : State :=
  { s with sent := p.sent, rx := p.rx, input := p.input, answers := p.answers }

/-- The ports of a block. -/
def State.ports (s : State) : Ports := ⟨s.sent, s.rx, s.input, s.answers⟩

theorem withPorts_ports (s : State) : s.withPorts s.ports = s := rfl

/-- No check of `DESCR` and no move of it looks at a port. -/
theorem descramble_withPorts (s : State) (lin : Bool) (p : Ports) :
    descramble (s.withPorts p) lin = (descramble s lin).map (·.withPorts p) := by
  change (selectVariant s.cfg.modelId s.mode lin >>= fun v =>
    checkLut s lin >>= fun _ => runVariant (s.withPorts p) lin v) = _
  unfold descramble
  cases selectVariant s.cfg.modelId s.mode lin with
  | error f => rfl
  | ok v =>
    cases checkLut s lin with
    | error f => rfl
    | ok _ =>
      cases v with
      | fullFrame4 =>
        change (checkFullFrame s.cfg s.geom.framesizeH.toInt s.geom.framesizeV.toInt >>= _) =
          Except.map _ (checkFullFrame s.cfg s.geom.framesizeH.toInt s.geom.framesizeV.toInt >>= _)
        cases checkFullFrame s.cfg s.geom.framesizeH.toInt s.geom.framesizeV.toInt <;> rfl
      | streak =>
        change (checkStreak s.cfg s.geom.framesizeH.toInt s.geom.framesizeV.toInt >>= _) =
          Except.map _ (checkStreak s.cfg s.geom.framesizeH.toInt s.geom.framesizeV.toInt >>= _)
        cases checkStreak s.cfg s.geom.framesizeH.toInt s.geom.framesizeV.toInt <;> rfl

/-! ### Every command answers once, whatever stands at its ports -/

/-- A command ends with one whole response, and does the same from other ports. -/
def AnswersOnce (i : Instr) (s : State) : Prop :=
  ∃ (t : State) (r : List Word), responseWhole s.cfg.modelId r ∧
    ∀ p : Ports, exec i (s.withPorts p) = .next (t.withPorts { p with sent := p.sent ++ [r] })

section Answers
variable {i : Instr} {s u : State}

theorem answersOnce_of_raise {f : Failure}
    (h : ∀ p, exec i (s.withPorts p) = .next ((s.withPorts p).raise f)) : AnswersOnce i s :=
  ⟨s, errorResponse s.cfg.modelId f, responseWhole_errorResponse _ f, h⟩

theorem answersOnce_of_complete {d : Word} (hcfg : u.cfg = s.cfg)
    (h : ∀ p, exec i (s.withPorts p) = .next ((u.withPorts p).complete d)) : AnswersOnce i s :=
  ⟨u, okResponse u.cfg.modelId d, hcfg ▸ responseWhole_okResponse _ d, h⟩

theorem answersOnce_sequence (hi : isSequence i = true) : AnswersOnce i s := by
  rw [← sequencePlan_isSome s] at hi
  obtain ⟨r, hr⟩ := Option.isSome_iff_exists.1 hi
  have hplan (p : Ports) : sequencePlan (s.withPorts p) i = some r :=
    (sequencePlan_congr rfl rfl rfl i).trans hr
  cases r with
  | error f => exact answersOnce_of_raise fun p => exec_eq_runSequence (hplan p)
  | ok q => exact answersOnce_of_complete (commitPlan_cfg s q) fun p => exec_eq_runSequence (hplan p)

theorem descramble_cfg {lin : Bool} (h : descramble s lin = .ok u) : u.cfg = s.cfg := by
  obtain ⟨-, ⟨-, -, -, rfl⟩ | ⟨-, -, -, -, rfl⟩⟩ := (descramble_ok s u lin).1 h
  · exact storeImage_cfg ..
  · exact storeImage_cfg ..

theorem exec_descrOf (s : State) (lin : Bool) : exec (descrOf lin) s = finish s (descramble s lin) := by
  cases lin <;> rfl

theorem answersOnce_descr (lin : Bool) : AnswersOnce (descrOf lin) s := by
  have hrun (p : Ports) : exec (descrOf lin) (s.withPorts p) =
      finish (s.withPorts p) ((descramble s lin).map (·.withPorts p)) := by
    rw [exec_descrOf, descramble_withPorts]
  cases hd : descramble s lin with
  | error f => exact answersOnce_of_raise fun p => (hrun p).trans (by rw [hd]; rfl)
  | ok v => exact answersOnce_of_complete (descramble_cfg hd) fun p => (hrun p).trans (by rw [hd]; rfl)

theorem exec_answersOnce (i : Instr) (s : State) : AnswersOnce i s := by
  cases i with
  | rdreg a =>
    cases hd : decodeAddress s.cfg a with
    | error f => exact answersOnce_of_raise fun p => exec_rdreg_of_decode_error hd
    | ok k =>
      exact answersOnce_of_complete (u := s) (d := s.reg k) rfl
        fun p => exec_rdreg_of_decoded (s := s.withPorts p) hd
  | wrreg a v =>
    cases hd : decodeAddress s.cfg a with
    | error f => exact answersOnce_of_raise fun p => exec_wrreg_of_decode_error hd
    | ok k =>
      cases hc : checkWrite (descriptor s.cfg k) a v with
      | error f => exact answersOnce_of_raise fun p => exec_wrreg_of_check_error hd hc
      | ok _ =>
        exact answersOnce_of_complete (u := s.setReg k v) rfl fun p => exec_wrreg_of_check_ok hd hc
  | getps a =>
    cases hd : decodeId s.cfg a with
    | error e => exact answersOnce_of_raise fun p => exec_getps_of_decode_error hd
    | ok f =>
      exact answersOnce_of_complete (u := s) (d := extractField f (s.reg 0)) rfl
        fun p => exec_getps_of_decoded (s := s.withPorts p) hd
  | setps a v =>
    cases hd : decodeId s.cfg a with
    | error e => exact answersOnce_of_raise fun p => exec_setps_of_decode_error hd
    | ok f =>
      exact answersOnce_of_complete (u := s.setReg 0 (insertField f v (s.reg 0))) rfl
        fun p => exec_setps_of_decoded hd
  | descr => exact answersOnce_descr false
  | descrLin => exact answersOnce_descr true
  | _ => exact answersOnce_sequence rfl

end Answers

/-- Settles O42: the ports of the statement are the state's own. -/
theorem everyCommandAnswersOnce : Obligations.EveryCommandAnswersOnce := by
  intro i s
  obtain ⟨t, r, hwhole, hrun⟩ := exec_answersOnce i s
  have hown := hrun s.ports
  rw [withPorts_ports] at hown
  exact ⟨_, r, hown, rfl, hwhole⟩

/-- Settles O44: other ports are other `Ports`. -/
theorem commandsIgnorePorts : Obligations.CommandsIgnorePorts := by
  intro i s
  obtain ⟨t, r, -, hrun⟩ := exec_answersOnce i s
  have hown := hrun s.ports
  rw [withPorts_ports] at hown
  exact ⟨_, r, hown, fun sent rx input answers => hrun ⟨sent, rx, input, answers⟩⟩

/-! ### What a command commits -/

/-- What a command can make of the state before it completes: nothing, one register written or one
field of the control register, the commit phase of a sequence, or an image. -/
inductive CommandCommits (s : State) : State → Prop where
  | read : CommandCommits s s
  | writeReg {a v : Word} {k : Nat} (hk : decodeAddress s.cfg a = .ok k)
      (hc : checkWrite (descriptor s.cfg k) a v = .ok ()) : CommandCommits s (s.setReg k v)
  | writeField (w : Word) : CommandCommits s (s.setReg 0 w)
  | sequence {i : Instr} {p : SequencePlan} (hp : sequencePlan s i = some (.ok p)) :
      CommandCommits s (commitPlan s p)
  | image {lin : Bool} {u : State} (hu : descramble s lin = .ok u) : CommandCommits s u

section Commits
variable {i : Instr} {s t u : State}

theorem exec_descrOf_cases {lin : Bool} (h : exec (descrOf lin) s = .next t) :
    (∃ f, t = s.raise f) ∨ ∃ u, descramble s lin = .ok u ∧ t = u.complete 0 := by
  rw [exec_descrOf] at h
  rcases finish_cases s t _ h with hok | ⟨f, -, hf⟩
  · exact .inr hok
  · exact .inl ⟨f, hf⟩

/-- A command raises, or commits and completes: the one inversion of `exec` that every invariant uses. -/
theorem exec_cases (h : exec i s = .next t) :
    (∃ f, t = s.raise f) ∨ ∃ u d, CommandCommits s u ∧ t = u.complete d := by
  have image {lin : Bool} (h : exec (descrOf lin) s = .next t) :
      (∃ f, t = s.raise f) ∨ ∃ u d, CommandCommits s u ∧ t = u.complete d :=
    (exec_descrOf_cases h).imp_right fun ⟨u, hu, ht⟩ => ⟨u, 0, .image hu, ht⟩
  have sequence (hi : isSequence i = true) :
      (∃ f, t = s.raise f) ∨ ∃ u d, CommandCommits s u ∧ t = u.complete d := by
    rcases exec_sequence_cases hi h with ⟨p, hp, ht⟩ | ⟨f, -, ht⟩
    · exact .inr ⟨_, 0, .sequence hp, ht⟩
    · exact .inl ⟨f, ht⟩
  cases i with
  | rdreg a =>
    rcases finishRead_cases s t _ h with ⟨d, -, ht⟩ | ⟨f, -, ht⟩
    · exact .inr ⟨s, d, .read, ht⟩
    · exact .inl ⟨f, ht⟩
  | getps a =>
    rcases finishRead_cases s t _ h with ⟨d, -, ht⟩ | ⟨f, -, ht⟩
    · exact .inr ⟨s, d, .read, ht⟩
    · exact .inl ⟨f, ht⟩
  | wrreg a v =>
    rcases finish_cases s t _ h with ⟨u, hu, ht⟩ | ⟨f, -, ht⟩
    · obtain ⟨k, hk, hstore⟩ := (bind_eq_ok _ _ _).1 hu
      obtain ⟨_, hc, hset⟩ := (bind_eq_ok _ _ _).1 hstore
      cases hset
      exact .inr ⟨_, 0, .writeReg hk hc, ht⟩
    · exact .inl ⟨f, ht⟩
  | setps a v =>
    rcases finish_cases s t _ h with ⟨u, hu, ht⟩ | ⟨f, -, ht⟩
    · obtain ⟨f, -, hset⟩ := (bind_eq_ok _ _ _).1 hu
      cases hset
      exact .inr ⟨_, 0, .writeField _, ht⟩
    · exact .inl ⟨f, ht⟩
  | descr => exact image (lin := false) h
  | descrLin => exact image (lin := true) h
  | _ => exact sequence rfl

theorem CommandCommits.cfg_eq (h : CommandCommits s u) : u.cfg = s.cfg := by
  cases h with
  | image hu => exact descramble_cfg hu
  | _ => rfl

theorem CommandCommits.sent_eq (h : CommandCommits s u) : u.sent = s.sent := by
  cases h with
  | image hu => exact descramble_sent hu
  | _ => rfl

end Commits

end Sys2Proof.Machine

/-!
PROOFS. Checks in their order (`60_exceptions.md` R234): when a computation of the validate phase reports
exactly the first failure of a list of checks, how this composes, and what it means for the command that
ends with it.
-/

namespace Sys2Proof.Machine

/-- The computation fails with the first check of the list that fails, and succeeds if none does. -/
def Reports {α : Type} (r : Except Failure α) (checks : List (Bool × Failure)) : Prop :=
  match firstFailure checks with
  | some x => r = .error x
  | none => ∃ a, r = .ok a

theorem firstFailure_append (cs ds : List (Bool × Failure)) :
    firstFailure (cs ++ ds) = (firstFailure cs).or (firstFailure ds) := by
  induction cs with
  | nil => rfl
  | cons c cs ih =>
    obtain ⟨failed, f⟩ := c
    cases failed with
    | true => rfl
    | false => exact ih

section Reports
variable {α β : Type} {r : Except Failure α} {cs ds : List (Bool × Failure)}

theorem reports_ok (a : α) : Reports (.ok a) [] := ⟨a, rfl⟩

/-- One check more, made before the others. -/
theorem Reports.check {P : Prop} [Decidable P] {f : Failure} (h : Reports r cs) :
    Reports (if P then .error f else r) ((decide P, f) :: cs) := by
  by_cases hP : P
  · simp [Reports, firstFailure, hP]
  · simpa [Reports, firstFailure, hP] using h

/-- The checks of what comes next are made only if those of the first part pass. -/
theorem Reports.bind {k : α → Except Failure β} (h : Reports r cs)
    (hk : ∀ a, r = .ok a → Reports (k a) ds) : Reports (r >>= k) (cs ++ ds) := by
  unfold Reports at h ⊢
  rw [firstFailure_append]
  cases hcs : firstFailure cs with
  | some x =>
    rw [hcs] at h
    rw [show r = .error x from h]
    rfl
  | none =>
    rw [hcs] at h
    obtain ⟨a, ha⟩ := h
    rw [ha]
    exact hk a ha

/-- What is computed after the last check adds no failure. -/
theorem Reports.map (g : α → β) (h : Reports r cs) : Reports (r.map g) cs := by
  unfold Reports at h ⊢
  split
  · next x hx =>
    rw [hx] at h
    rw [show r = .error x from h]
    rfl
  · next hx =>
    rw [hx] at h
    obtain ⟨a, ha⟩ := h
    exact ⟨g a, by rw [ha]; rfl⟩

theorem Reports.congr (h : Reports r cs) (hsame : firstFailure cs = firstFailure ds) :
    Reports r ds := by
  rwa [Reports, ← hsame]

/-- How a command ends whose validate phase reports its checks in order. -/
theorem finish_of_reports {s : State} {r : Except Failure State} (h : Reports r cs)
    (hsent : ∀ u, r = .ok u → u.sent = s.sent) :
    (∀ x, firstFailure cs = some x → finish s r = .next (s.raise x)) ∧
      (firstFailure cs = none → ∃ u, finish s r = .next u ∧ completedOk s u) := by
  refine ⟨fun x hx => ?fails, fun hx => ?completes⟩
  case fails =>
    rw [Reports, hx] at h
    rw [show r = .error x from h, finish_error]
  case completes =>
    rw [Reports, hx] at h
    obtain ⟨u, hu⟩ := h
    rw [hu, finish_ok]
    exact ⟨_, rfl, completedOk_complete s u 0 (hsent u hu)⟩

end Reports

/-! ### The checks that the sequence types share (`42_sequence_config.md` R141, R143, R144, R146) -/

section Shared
variable (c : Config)

theorem reports_checkParamCount (t : SequenceType) (ps : List S64) :
    Reports (checkParamCount t ps)
      [(decide (ps.length < requiredParams t),
        ⟨.seqParamCount, sequenceCode t, ps.length, requiredParams t, 0⟩)] :=
  (reports_ok ()).check

theorem reports_checkFrames (nf : Int) :
    Reports (checkFrames c nf)
      [ (decide (nf < (descriptor c 1).minimum),
          ⟨.seqFramesLow, nf, (descriptor c 1).minimum, (descriptor c 1).maximum, 0⟩),
        (decide (((descriptor c 1).maximum : Int) < nf),
          ⟨.seqFramesHigh, nf, (descriptor c 1).minimum, (descriptor c 1).maximum, 0⟩) ] :=
  (reports_ok ()).check.check

/-- The same for one frame, with the limits compared as the natural numbers they are. -/
theorem reports_checkFrames_one :
    Reports (checkFrames c 1)
      [ (decide (1 < (descriptor c 1).minimum),
          ⟨.seqFramesLow, 1, (descriptor c 1).minimum, (descriptor c 1).maximum, 0⟩),
        (decide ((descriptor c 1).maximum < 1),
          ⟨.seqFramesHigh, 1, (descriptor c 1).minimum, (descriptor c 1).maximum, 0⟩) ] := by
  simpa using reports_checkFrames c 1

theorem reports_exposureSteps (e : Int) :
    Reports (exposureSteps c e)
      [ (decide (e < 0), ⟨.seqExposureNegative, e, c.stepSize, 0, 0⟩),
        (decide (floorDiv e c.stepSize < (descriptor c 2).minimum ∨
            ((descriptor c 2).maximum : Int) < floorDiv e c.stepSize),
          ⟨.seqExposureStepsRange, e, floorDiv e c.stepSize, (descriptor c 2).minimum,
            (descriptor c 2).maximum⟩) ] :=
  (reports_ok _).check.check

theorem reports_gapSteps (g : Int) :
    Reports (gapSteps c g)
      [ (decide (g < 0), ⟨.seqGapNegative, g, c.stepSize, 1, c.gapStepsMax⟩),
        (decide (floorDiv g c.stepSize < 1),
          ⟨.seqGapLow, g, floorDiv g c.stepSize, 1, c.gapStepsMax⟩),
        (decide ((c.gapStepsMax : Int) < floorDiv g c.stepSize),
          ⟨.seqGapHigh, g, floorDiv g c.stepSize, 1, c.gapStepsMax⟩) ] :=
  (reports_ok _).check.check.check

end Shared

/-! ### The checks of each branch -/

section Frames
variable (c : Config) (t : SequenceType) (nf : Int)

theorem reports_checkBulb :
    Reports (checkBulb t nf) [(decide (t = .bulb ∧ nf ≠ 1), ⟨.seqBulbFrames, nf, 1, 0, 0⟩)] :=
  (reports_ok ()).check

/-- The gap is checked only where one is computed (R147). -/
theorem reports_frameGap (g : Int) :
    Reports (frameGap c t nf g)
      [ (decide ((t ≠ .continuous ∧ 1 < nf) ∧ g < 0),
          ⟨.seqGapNegative, g, c.stepSize, 1, c.gapStepsMax⟩),
        (decide ((t ≠ .continuous ∧ 1 < nf) ∧ floorDiv g c.stepSize < 1),
          ⟨.seqGapLow, g, floorDiv g c.stepSize, 1, c.gapStepsMax⟩),
        (decide ((t ≠ .continuous ∧ 1 < nf) ∧ (c.gapStepsMax : Int) < floorDiv g c.stepSize),
          ⟨.seqGapHigh, g, floorDiv g c.stepSize, 1, c.gapStepsMax⟩) ] := by
  unfold frameGap
  split
  · next hcontinuous => exact (reports_ok _).congr (by simp [firstFailure, hcontinuous])
  · next ht =>
    split
    · next hmany =>
      refine ((reports_gapSteps c g).bind (ds := []) fun gs _ => reports_ok (some gs)).congr ?_
      simp [firstFailure, ht, hmany]
    · next hone => exact (reports_ok _).congr (by simp [firstFailure, hone])

end Frames


theorem reports_streakLines (c : Config) (p : Int) :
    Reports (streakLines c p)
      [(decide (floorQ c p < (descriptor c 4).minimum ∨ ((descriptor c 4).maximum : Int) < floorQ c p),
        ⟨.seqStreakLinesRange, p, floorQ c p, (descriptor c 4).minimum, (descriptor c 4).maximum⟩)] :=
  (reports_ok _).check

theorem reports_checkSubimageCounts (c : Config) (p0 p1 : Int) :
    Reports (checkSubimageCounts c p0 p1)
      [ (decide (p0 < 0 ∨ p1 < 0), ⟨.seqSubimageParamNegative, p0, p1, 0, 0⟩),
        (decide ((c.subimageLinesMax : Int) < subimageTotal c p0 p1),
          ⟨.seqSubimageTotal, subimageTotal c p0 p1, c.subimageLinesMax, p0, p1⟩) ] :=
  (reports_ok ()).check.check

theorem reports_subframeSize (c : Config) (p0 : Int) :
    Reports (subframeSize c p0)
      [(decide (floorDiv p0 (2 * c.qDenom) < (descriptor c 5).minimum ∨
          ((descriptor c 5).maximum : Int) < floorDiv p0 (2 * c.qDenom)),
        ⟨.seqSubframeRange, p0, floorDiv p0 (2 * c.qDenom), (descriptor c 5).minimum,
          (descriptor c 5).maximum⟩)] :=
  (reports_ok _).check

theorem reports_subimagesPerRead (c : Config) (p1 : Int) :
    Reports (subimagesPerRead c p1)
      [(decide (floorQ c p1 < (descriptor c 6).minimum ∨ ((descriptor c 6).maximum : Int) < floorQ c p1),
        ⟨.seqSubimagesRange, p1, floorQ c p1, (descriptor c 6).minimum, (descriptor c 6).maximum⟩)] :=
  (reports_ok _).check

/-! ### The statements -/

theorem sequencePlan_of_frameRequest {i : Instr} {s : State} {t : SequenceType} {ps : List S64}
    {nf e f : Int} (h : frameRequest s.cfg i = some (t, ps, nf, e, f)) :
    sequencePlan s i = some (frameBasedPlan s t ps nf e f) := by
  cases i <;> cases h <;> rfl

/-- A sequence whose plan reports its checks in order. -/
theorem exec_sequence_of_reports {i : Instr} {s : State} {r : Except Failure SequencePlan}
    {cs : List (Bool × Failure)} (hr : sequencePlan s i = some r) (h : Reports r cs) :
    (∀ x, firstFailure cs = some x → exec i s = .next (s.raise x)) ∧
      (firstFailure cs = none → ∃ u, exec i s = .next u ∧ completedOk s u) := by
  rw [exec_eq_runSequence hr]
  refine finish_of_reports (h.map (commitPlan s)) fun u hu => ?_
  cases r with
  | error f => cases hu
  | ok p =>
    cases hu
    exact commitPlan_sent s p

/-- Settles O28: the checks of a frame-based type, composed in the order its plan makes them. -/
theorem frameBasedErrorsInOrder : Obligations.FrameBasedErrorsInOrder := by
  intro i s t ps nf e f hreq
  refine exec_sequence_of_reports (sequencePlan_of_frameRequest hreq) ?_
  exact (reports_checkParamCount t ps).bind fun _ _ =>
    (reports_checkBulb t nf).bind fun _ _ =>
      (reports_checkFrames s.cfg nf).bind fun _ _ =>
        (reports_exposureSteps s.cfg e).bind fun _ _ =>
          (reports_frameGap s.cfg t nf (f - e - s.readoutTime.toInt)).bind fun _ _ => reports_ok _

/-- Settles O29: the checks of the streak-camera branch, composed in the order its plan makes them. -/
theorem streakErrorsInOrder : Obligations.StreakErrorsInOrder := by
  intro ps s
  refine exec_sequence_of_reports (i := .cfgseqStreak ps) rfl ?_
  exact (reports_checkParamCount .streak ps).bind fun _ _ =>
    (reports_checkFrames_one s.cfg).bind fun _ _ =>
      (reports_streakLines s.cfg (param ps 0)).bind fun _ _ =>
        (reports_exposureSteps s.cfg (param ps 1)).bind fun _ _ =>
          (reports_gapSteps s.cfg (param ps 2 - param ps 1)).bind fun _ _ => reports_ok _

/-- Settles O30: the checks of the sub-image branch, composed in the order its plan makes them. -/
theorem subimageErrorsInOrder : Obligations.SubimageErrorsInOrder := by
  intro ps s
  refine exec_sequence_of_reports (i := .cfgseqSubimage ps) rfl ?_
  exact (reports_checkParamCount .subimage ps).bind fun _ _ =>
    (reports_checkSubimageCounts s.cfg (param ps 0) (param ps 1)).bind fun _ _ =>
      (reports_checkFrames_one s.cfg).bind fun _ _ =>
        (reports_subframeSize s.cfg (param ps 0)).bind fun _ _ =>
          (reports_subimagesPerRead s.cfg (param ps 1)).bind fun _ _ =>
            (reports_exposureSteps s.cfg (param ps 2)).bind fun _ _ =>
              (reports_gapSteps s.cfg (param ps 3 - param ps 2)).bind fun _ _ => reports_ok _

end Sys2Proof.Machine

/-!
PROOFS. What a completed `CFGSEQ` leaves (`42_sequence_config.md` R150 to R171): the commit phase as a
list of register writes, what a list of writes makes of each register, the plan that each type computes
when its checks are met, and from these the statements.
-/

namespace Sys2Proof.Machine

/-! ### A list of register writes -/

/-- Register writes made one after another. -/
def writeRegs (r : List Word) (ws : List (Nat × Int)) : List Word :=
  ws.foldl (fun r w => r.set w.1 (BitVec.ofInt 32 w.2)) r

section Writes
variable (r : List Word) (ws : List (Nat × Int))

theorem writeRegs_cons (w : Nat × Int) :
    writeRegs r (w :: ws) = writeRegs (r.set w.1 (BitVec.ofInt 32 w.2)) ws := rfl

theorem writeRegs_append (vs : List (Nat × Int)) :
    writeRegs r (ws ++ vs) = writeRegs (writeRegs r ws) vs := List.foldl_append

theorem length_writeRegs : (writeRegs r ws).length = r.length := by
  induction ws generalizing r with
  | nil => rfl
  | cons w ws ih => rw [writeRegs_cons, ih, List.length_set]

variable {r ws}

theorem getD_writeRegs_of_notMem {k : Nat} (h : k ∉ ws.map Prod.fst) :
    (writeRegs r ws).getD k 0 = r.getD k 0 := by
  induction ws generalizing r with
  | nil => rfl
  | cons w ws ih =>
    obtain ⟨hne, hrest⟩ := not_or.1 (List.mem_cons.not.1 h)
    rw [writeRegs_cons, ih hrest, getD_set_other _ hne]

/-- Where no register is written twice, each holds what was written to it. -/
theorem getD_writeRegs_of_mem {w : Nat × Int} (hn : (ws.map Prod.fst).Nodup) (hw : w ∈ ws)
    (hlt : w.1 < r.length) : (writeRegs r ws).getD w.1 0 = BitVec.ofInt 32 w.2 := by
  induction ws generalizing r with
  | nil => cases hw
  | cons v ws ih =>
    obtain ⟨hnot, hrest⟩ := List.nodup_cons.1 hn
    rw [writeRegs_cons]
    rcases List.mem_cons.1 hw with rfl | hw
    · rw [getD_writeRegs_of_notMem hnot]
      simp [hlt]
    · exact ih hrest hw (by rwa [List.length_set])

end Writes

/-! ### The writes of a plan (R171, steps 2 to 5) -/

/-- The writes of the branch, step 3. -/
def branchWrites : SequenceBranch → List (Nat × Int)
  | .frameBased => []
  | .streak lines _ => [(4, lines)]
  | .subimage sf sp => [(5, sf), (6, sp)]

/-- The write of the gap register, step 5. -/
def gapWrites : Option Int → List (Nat × Int)
  | none => []
  | some gs => [(3, gs)]

/-- The registers that the commit phase writes, in its order, the control register left out. -/
def planWrites (p : SequencePlan) : List (Nat × Int) :=
  (1, p.frames) :: (branchWrites p.branch ++ (2, p.exposure) :: gapWrites p.gap)

theorem branchRegs_eq_writeRegs (b : SequenceBranch) (r : List Word) :
    branchRegs b r = writeRegs r (branchWrites b) := by
  cases b <;> rfl

theorem gapRegs_eq_writeRegs (g : Option Int) (r : List Word) :
    gapRegs g r = writeRegs r (gapWrites g) := by
  cases g <;> rfl

theorem commitPlan_regs_eq (s : State) (p : SequencePlan) :
    (commitPlan s p).regs = controlRegs (s.reg 0) p.new (writeRegs s.regs (planWrites p)) := by
  rw [commitPlan_regs, branchRegs_eq_writeRegs, gapRegs_eq_writeRegs, planWrites, writeRegs_cons,
    writeRegs_append, writeRegs_cons]

/-- No plan writes a register twice, and all are architected ones other than the control register. -/
theorem planWrites_keys (p : SequencePlan) :
    ((planWrites p).map Prod.fst).Nodup ∧ ∀ k ∈ (planWrites p).map Prod.fst, 1 ≤ k ∧ k < 7 := by
  unfold planWrites
  cases p.branch <;> cases p.gap <;> simp [branchWrites, gapWrites]

/-- What a completed sequence leaves, read off its plan. -/
theorem sequenceLeaves_commitPlan {s : State} (p : SequencePlan) (hlen : 7 ≤ s.regs.length) :
    sequenceLeaves s ((commitPlan s p).complete 0) p.new (planWrites p)
      (branchGeometry p.branch (if p.restore = true then s.saved else s.geom))
      (if p.save = true then s.geom else s.saved) := by
  obtain ⟨hnodup, hkeys⟩ := planWrites_keys p
  have hother {k : Nat} (hk : k ≠ 0) :
      (commitPlan s p).reg k = (writeRegs s.regs (planWrites p)).getD k 0 := by
    rw [State.reg, commitPlan_regs_eq, controlRegs_other _ _ _ k hk]
  refine ⟨reg_commitPlan_zero s p (by omega), fun w hw => ?written, fun k hk hnot => ?unwritten, ?length,
    rfl, rfl, rfl, sameElsewhere_commitPlan s p 0⟩
  case written =>
    obtain ⟨hpos, hlt⟩ := hkeys w.1 (List.mem_map_of_mem hw)
    rw [reg_complete, hother (by omega), getD_writeRegs_of_mem hnodup hw (by omega)]
  case unwritten => rw [reg_complete, hother hk, getD_writeRegs_of_notMem hnot, State.reg]
  case length => rw [complete_regs, commitPlan_regs_eq, controlRegs_length, length_writeRegs]

theorem exec_sequence_completes {i : Instr} {s : State} {p : SequencePlan}
    (hp : sequencePlan s i = some (.ok p)) (hlen : 7 ≤ s.regs.length) :
    ∃ t, exec i s = .next t ∧ sequenceLeaves s t p.new (planWrites p)
      (branchGeometry p.branch (if p.restore = true then s.saved else s.geom))
      (if p.save = true then s.geom else s.saved) :=
  ⟨_, exec_eq_runSequence hp, sequenceLeaves_commitPlan p hlen⟩

/-! ### The frame-based types (R150 to R156) -/

theorem leaveToFullFrame_eq (c : Config) (old w : Word) :
    leaveToFullFrame c old w = if old = fullFrame then w else w &&& ~~~readoutMask c := by
  rw [leaveToFullFrame, ite_not]

/-- What a frame-based type leaves when its checks are met. -/
theorem exec_frameBased_completes {i : Instr} {s : State} {t : SequenceType} {ps : List S64}
    {nf e f : Int} {gap : Option Int} (hreq : frameRequest s.cfg i = some (t, ps, nf, e, f))
    (hlen : 7 ≤ s.regs.length) (hcount : requiredParams t ≤ ps.length) (hbulb : t = .bulb → nf = 1)
    (hlo : (descriptor s.cfg 1).minimum ≤ nf) (hhi : nf ≤ (descriptor s.cfg 1).maximum)
    (he : 0 ≤ e) (hemin : (descriptor s.cfg 2).minimum ≤ floorDiv e s.cfg.stepSize)
    (hemax : floorDiv e s.cfg.stepSize ≤ (descriptor s.cfg 2).maximum)
    (hgap : frameGap s.cfg t nf (f - e - s.readoutTime.toInt) = .ok gap) :
    ∃ u, exec i s = .next u ∧ sequenceLeaves s u
      (if s.mode = fullFrame then prologueWord s.cfg t (s.reg 0)
        else prologueWord s.cfg t (s.reg 0) &&& ~~~readoutMask s.cfg)
      ((1, nf) :: (2, floorDiv e s.cfg.stepSize) :: gapWrites gap) (leftGeometry s) s.saved := by
  have hplan := (frameBasedPlan_ok s t ps nf e f _).2 ⟨(checkParamCount_ok t ps).2 hcount,
    (checkBulb_ok t nf).2 hbulb, (checkFrames_ok s.cfg nf).2 ⟨hlo, hhi⟩, _,
    (exposureSteps_ok s.cfg e _).2 ⟨he, rfl, hemin, hemax⟩, gap, hgap, rfl⟩
  have hrun := exec_sequence_completes ((sequencePlan_of_frameRequest hreq).trans (by rw [hplan])) hlen
  rw [leaveToFullFrame_eq] at hrun
  simpa [planWrites, branchWrites, branchGeometry, leftGeometry] using hrun

theorem prologueWord_of_ne_bulb {t : SequenceType} (ht : t ≠ .bulb) (c : Config) (w : Word) :
    prologueWord c t w = w &&& ~~~durationBit c := if_neg ht

theorem frameGap_of_one {t : SequenceType} (ht : t ≠ .continuous) (c : Config) (g : Int) :
    frameGap c t 1 g = .ok none := by
  rw [frameGap_ok]
  exact .inr (.inr ⟨ht, by decide, rfl⟩)

/-- Settles O22: one frame asks for no gap. -/
theorem oneshotProgramsExposure : Obligations.OneshotProgramsExposure := by
  intro ps s hcount hlen hlo hhi e es w he hemin hemax
  exact exec_frameBased_completes (i := .cfgseqOneshot ps) rfl hlen hcount (by decide)
    (by omega) (by omega) he hemin hemax (frameGap_of_one (by decide) _ _)

/-- Settles O23: the gap of the type is 1, whatever the times. -/
theorem continuousFixesGap : Obligations.ContinuousFixesGap := by
  intro ps s hcount hlen hlo hhi e es w he hemin hemax
  exact exec_frameBased_completes (i := .cfgseqContinuous ps) rfl hlen hcount (by decide)
    (by omega) (by omega) he hemin hemax (gap := some 1) rfl

/-- Settles O25: the count is 1, so the Bulb check passes and no gap is computed. -/
theorem bulbSetsDurationTrigger : Obligations.BulbSetsDurationTrigger := by
  intro ps s hcount hlen hframes hlo hhi e es w he hemin hemax
  have hreq : frameRequest s.cfg (.cfgseqBulb ps) = some (.bulb, ps, 1, param ps 1, param ps 1) := by
    rw [frameRequest, hframes]
  exact exec_frameBased_completes hreq hlen hcount (fun _ => rfl) (by omega) (by omega) he hemin hemax
    (frameGap_of_one (by decide) _ _)

/-- The four types with a count, an exposure and a frame time (R152, R153, R154, R156). -/
theorem multiframe_request {mk : List S64 → Instr}
    (hmk : mk = .cfgseqMultiframe ∨ mk = .cfgseqCircular ∨ mk = .cfgseqStrobe ∨
      mk = .cfgseqGeometrical) :
    ∃ t : SequenceType, requiredParams t = 3 ∧ t ≠ .bulb ∧ t ≠ .continuous ∧
      ∀ (c : Config) (ps : List S64),
        frameRequest c (mk ps) = some (t, ps, roundQ c (param ps 0), param ps 1, param ps 2) := by
  rcases hmk with rfl | rfl | rfl | rfl
  · exact ⟨.multiframe, rfl, by decide, by decide, fun _ _ => rfl⟩
  · exact ⟨.circular, rfl, by decide, by decide, fun _ _ => rfl⟩
  · exact ⟨.strobe, rfl, by decide, by decide, fun _ _ => rfl⟩
  · exact ⟨.geometrical, rfl, by decide, by decide, fun _ _ => rfl⟩

/-- Settles O24: the four types ask for the same, and only more than one frame asks for a gap. -/
theorem multiframeFamilyProgramsGap : Obligations.MultiframeFamilyProgramsGap := by
  intro mk ps s hmk hcount hlen nf e es g gs w hlo hhi he hemin hemax hgap
  obtain ⟨t, hparams, hbulb, hcontinuous, hreq⟩ := multiframe_request hmk
  have hrun {gap : Option Int} := exec_frameBased_completes (gap := gap) (hreq s.cfg ps) hlen
    (hparams ▸ hcount) (fun ht => absurd ht hbulb) hlo hhi he hemin hemax
  rw [prologueWord_of_ne_bulb hbulb] at hrun
  by_cases hmany : 1 < nf
  · rw [if_pos hmany]
    obtain ⟨hg, hgmin, hgmax⟩ := hgap hmany
    exact hrun ((frameGap_ok _ _ _ _ _).2 (.inr (.inl
      ⟨hcontinuous, hmany, gs, (gapSteps_ok _ _ _).2 ⟨hg, rfl, hgmin, hgmax⟩, rfl⟩)))
  · rw [if_neg hmany]
    exact hrun ((frameGap_ok _ _ _ _ _).2 (.inr (.inr ⟨hcontinuous, hmany, rfl⟩)))

/-! ### The streak-camera and the sub-image branch (R160, R165) -/

/-- Settles O26: the plan is the one its checks leave, and it saves exactly on entering the mode. -/
theorem streakSavesAndHalvesLines : Obligations.StreakSavesAndHalvesLines := by
  intro ps s hcount hlen hlo hhi lines e es g gs w hlmin hlmax he hemin hemax hg hgmin hgmax
  have hplan := (streakPlan_ok s ps _).2 ⟨(checkParamCount_ok .streak ps).2 hcount,
    (checkFrames_ok s.cfg 1).2 ⟨by omega, by omega⟩, _,
    (streakLines_ok s.cfg _ _).2 ⟨rfl, hlmin, hlmax⟩, _,
    (exposureSteps_ok s.cfg e _).2 ⟨he, rfl, hemin, hemax⟩, _,
    (gapSteps_ok s.cfg g _).2 ⟨hg, rfl, hgmin, hgmax⟩, rfl⟩
  have hrun := exec_sequence_completes (i := .cfgseqStreak ps) (congrArg some hplan) hlen
  simp only [planWrites, branchWrites, gapWrites, branchGeometry, List.cons_append, List.nil_append,
    ite_not, bne_iff_ne, ne_eq, Bool.false_eq_true, if_false] at hrun
  exact hrun

/-- Settles O27: the plan is the one its checks leave, and it restores exactly on leaving streak-camera
mode. -/
theorem subimageProgramsCounts : Obligations.SubimageProgramsCounts := by
  intro ps s hcount hlen hlo hhi hp0 hp1 htotal sf sp e es g gs w hsfmin hsfmax hspmin hspmax he hemin
    hemax hg hgmin hgmax
  have hplan := (subimagePlan_ok s ps _).2 ⟨(checkParamCount_ok .subimage ps).2 hcount,
    (checkSubimageCounts_ok s.cfg _ _).2 ⟨hp0, hp1, htotal⟩,
    (checkFrames_ok s.cfg 1).2 ⟨by omega, by omega⟩, _,
    (subframeSize_ok s.cfg _ _).2 ⟨rfl, hsfmin, hsfmax⟩, _,
    (subimagesPerRead_ok s.cfg _ _).2 ⟨rfl, hspmin, hspmax⟩, _,
    (exposureSteps_ok s.cfg e _).2 ⟨he, rfl, hemin, hemax⟩, _,
    (gapSteps_ok s.cfg g _).2 ⟨hg, rfl, hgmin, hgmax⟩, rfl⟩
  have hrun := exec_sequence_completes (i := .cfgseqSubimage ps) (congrArg some hplan) hlen
  simp only [planWrites, branchWrites, gapWrites, branchGeometry, List.cons_append, List.nil_append,
    ite_not, beq_iff_eq, ne_eq, Bool.false_eq_true, if_false] at hrun
  exact hrun

/-! ### Into streak-camera mode and out of it (R173) -/

theorem sequence_regs_length {i : Instr} {s t : State} (hi : isSequence i = true)
    (h : exec i s = .next t) : t.regs.length = s.regs.length := by
  rcases exec_sequence_cases hi h with ⟨p, -, rfl⟩ | ⟨f, -, rfl⟩
  · rw [complete_regs, commitPlan_regs_eq, controlRegs_length, length_writeRegs]
  · rfl

theorem sequence_cfg {i : Instr} {s t : State} (hi : isSequence i = true)
    (h : exec i s = .next t) : t.cfg = s.cfg := by
  obtain ⟨⟨hcfg, -⟩, -⟩ := cfgseqFrame i s t hi h
  exact hcfg

theorem isSequence_of_frameBased {i : Instr} (h : isFrameBased i = true) : isSequence i = true := by
  cases i <;> simp [isFrameBased, isSequence] at h ⊢

/-- In streak-camera mode `CFGSEQ.STREAK`, successful or not, stays there and leaves `SAVED` alone. -/
theorem streak_in_streakCamera {s t : State} {qs : List S64} (hc : s.cfg.legal)
    (hlen : 7 ≤ s.regs.length) (hmode : s.mode = streakCamera)
    (h : exec (.cfgseqStreak qs) s = .next t) : t.mode = streakCamera ∧ t.saved = s.saved := by
  obtain ⟨hfailed, hdone⟩ := readoutModeMachine.2 _ s t hc hlen rfl h
  by_cases hok : completedOk s t
  · obtain ⟨-, hstreak, -⟩ := hdone hok
    obtain ⟨htmode, htsaved, -⟩ := hstreak qs rfl
    exact ⟨htmode, htsaved.trans (if_pos hmode)⟩
  · obtain ⟨htmode, -, htsaved⟩ := hfailed hok
    exact ⟨htmode.trans hmode, htsaved⟩

/-- Settles O32: the entry saves the geometry, nothing in between writes `SAVED`, and the exit restores
from it. -/
theorem streakRoundTripRestoresGeometry : Obligations.StreakRoundTripRestoresGeometry := by
  intro s t u w ps qs i hc hlen hmode hi henter hentered hstay hleave hleft
  obtain ⟨-, hdone⟩ := readoutModeMachine.2 _ s t hc hlen rfl henter
  obtain ⟨-, hstreak, -⟩ := hdone hentered
  obtain ⟨htmode, htsaved, -⟩ := hstreak ps rfl
  have htc : t.cfg.legal := (sequence_cfg rfl henter) ▸ hc
  have htlen : 7 ≤ t.regs.length := hlen.trans_eq (sequence_regs_length rfl henter).symm
  obtain ⟨humode, husaved⟩ := streak_in_streakCamera htc htlen htmode hstay
  have huc : u.cfg.legal := (sequence_cfg rfl hstay) ▸ htc
  have hulen : 7 ≤ u.regs.length := htlen.trans_eq (sequence_regs_length rfl hstay).symm
  obtain ⟨-, hdone⟩ := readoutModeMachine.2 i u w huc hulen (isSequence_of_frameBased hi) hleave
  obtain ⟨hframe, -⟩ := hdone hleft
  obtain ⟨hwmode, -, hwgeom⟩ := hframe hi
  refine ⟨?_, hwmode⟩
  calc w.geom = u.saved := hwgeom.trans (if_pos humode)
    _ = t.saved := husaved
    _ = s.geom := htsaved.trans (if_neg hmode)

end Sys2Proof.Machine

/-!
PROOFS. `DESCR` and `DESCR.LIN` (`43_descramble.md`): both mappings as bijections, the four-tap image in
its closed form, the order of the checks, what no descrambling touches, and the identity table.
-/

namespace Sys2Proof.Machine

/-! ### A grid of groups -/

/-- Distinct numbers below `n`, `n` of them, are all the numbers below `n`. -/
theorem perm_range_of_nodup {l : List Nat} {n : Nat} (hn : l.Nodup) (hlt : ∀ a ∈ l, a < n)
    (hlen : l.length = n) : l.Perm (List.range n) :=
  (hn.subperm fun a ha => List.mem_range.2 (hlt a ha)).perm_of_length_le (by simp [hlen])

/-- The groups of a grid hold no number twice if each number tells the row and the column of its group. -/
theorem nodup_grid {n k : Nat} {f : Nat → Nat → List Nat} (row col : Nat → Nat)
    (hgroup : ∀ i j, i < n → j < k → (f i j).Nodup)
    (hplace : ∀ i j a, i < n → j < k → a ∈ f i j → row a = i ∧ col a = j) :
    ((List.range n).flatMap fun i => (List.range k).flatMap fun j => f i j).Nodup := by
  refine List.nodup_flatMap.2 ⟨fun i hi => List.nodup_flatMap.2 ⟨fun j hj => ?group, ?groups⟩, ?rows⟩
  case group => exact hgroup i j (List.mem_range.1 hi) (List.mem_range.1 hj)
  case groups =>
    refine List.nodup_range.imp_of_mem fun {j j'} hj hj' hne a ha ha' => hne ?_
    rw [List.mem_range] at hi hj hj'
    rw [← (hplace i j a hi hj ha).2, ← (hplace i j' a hi hj' ha').2]
  case rows =>
    refine List.nodup_range.imp_of_mem fun {i i'} hi hi' hne a ha ha' => hne ?_
    obtain ⟨j, hj, ha⟩ := List.mem_flatMap.1 ha
    obtain ⟨j', hj', ha'⟩ := List.mem_flatMap.1 ha'
    rw [List.mem_range] at hi hi' hj hj'
    rw [← (hplace i j a hi hj ha).1, ← (hplace i' j' a hi' hj' ha').1]

/-- The line and the place in it of an index. -/
theorem line_place {r c h : Nat} (hc : c < h) : (r * h + c) / h = r ∧ (r * h + c) % h = c := by
  rw [Nat.mul_comm, Nat.mul_add_div (by omega), Nat.div_eq_of_lt hc, Nat.mul_add_mod,
    Nat.mod_eq_of_lt hc]
  exact ⟨rfl, rfl⟩

/-! ### The four-tap mapping (R193, R194) -/

/-- The group that a line, or a place in a line, belongs to: both ends of the line of length `n` count
towards its middle. -/
def groupOf (n r : Nat) : Nat := if r < n / 2 then r else n - 1 - r

theorem groupOf_near {n i : Nat} (hi : i < n / 2) : groupOf n i = i := if_pos hi

theorem groupOf_far {n i : Nat} (hn : n % 2 = 0) (hi : i < n / 2) : groupOf n (n - 1 - i) = i := by
  rw [groupOf, if_neg (by omega)]
  omega

section Group
variable {h v i j : Nat} (hh : h % 2 = 0) (hv : v % 2 = 0) (hi : i < v / 2) (hj : j < h / 2)
include hh hv hi hj

/-- A group in its closed form. -/
theorem fullFrameGroup_eq :
    fullFrameGroup 2 h v i j =
      [ ⟨i * h + j, 4 * (i * (h / 2) + j) + 2, 0⟩,
        ⟨i * h + (h - 1 - j), 4 * (i * (h / 2) + j) + 3, 1⟩,
        ⟨(v - 1 - i) * h + j, 4 * (i * (h / 2) + j) + 1, 2⟩,
        ⟨(v - 1 - i) * h + (h - 1 - j), 4 * (i * (h / 2) + j), 3⟩ ] := by
  have hright : h / 2 + (h / 2 - 1 - j) = h - 1 - j := by omega
  have hbelow : v / 2 + (v / 2 - 1 - i) = v - 1 - i := by omega
  simp [fullFrameGroup, sectorAddress, Nat.add_assoc, hright, hbelow]

/-- The four moves of a group, one by one. -/
theorem forall_mem_fullFrameGroup (p : Nat → Nat → Nat → Prop) :
    (∀ m ∈ fullFrameGroup 2 h v i j, p m.dst m.src m.sector) ↔
      p (i * h + j) (4 * (i * (h / 2) + j) + 2) 0 ∧
        p (i * h + (h - 1 - j)) (4 * (i * (h / 2) + j) + 3) 1 ∧
        p ((v - 1 - i) * h + j) (4 * (i * (h / 2) + j) + 1) 2 ∧
        p ((v - 1 - i) * h + (h - 1 - j)) (4 * (i * (h / 2) + j)) 3 := by
  simp [fullFrameGroup_eq hh hv hi hj]

/-- A destination lies in the frame, and tells its group. -/
theorem place_of_mem_fullFrameGroup {m : Move} (hm : m ∈ fullFrameGroup 2 h v i j) :
    m.dst / h < v ∧ groupOf v (m.dst / h) = i ∧ groupOf h (m.dst % h) = j := by
  have place {r c : Nat} (hr : r < v) (hc : c < h) (hri : groupOf v r = i) (hcj : groupOf h c = j) :
      (r * h + c) / h < v ∧ groupOf v ((r * h + c) / h) = i ∧ groupOf h ((r * h + c) % h) = j := by
    obtain ⟨hline, hplace⟩ := line_place (r := r) hc
    rw [hline, hplace]
    exact ⟨hr, hri, hcj⟩
  refine (forall_mem_fullFrameGroup hh hv hi hj fun dst _ _ =>
    dst / h < v ∧ groupOf v (dst / h) = i ∧ groupOf h (dst % h) = j).2 ⟨?_, ?_, ?_, ?_⟩ m hm
  · exact place (by omega) (by omega) (groupOf_near hi) (groupOf_near hj)
  · exact place (by omega) (by omega) (groupOf_near hi) (groupOf_far hh hj)
  · exact place (by omega) (by omega) (groupOf_far hv hi) (groupOf_near hj)
  · exact place (by omega) (by omega) (groupOf_far hv hi) (groupOf_far hh hj)

theorem nodup_map_dst_fullFrameGroup : ((fullFrameGroup 2 h v i j).map Move.dst).Nodup := by
  have hlines : i * h + h ≤ (v - 1 - i) * h := by
    rw [← Nat.succ_mul]
    exact Nat.mul_le_mul_right h (by omega)
  simp only [fullFrameGroup_eq hh hv hi hj, List.map_cons, List.map_nil, List.nodup_cons,
    List.mem_cons, List.not_mem_nil, List.nodup_nil, not_or, not_false_eq_true, or_false, and_true]
  omega

end Group

section FourTap
variable {h v : Nat} (hh : h % 2 = 0) (hv : v % 2 = 0)

theorem length_fullFrameMoves (hdf h v : Nat) :
    (fullFrameMoves hdf h v).length = v / 2 * (h / 2 * 4) := by
  simp [fullFrameMoves, fullFrameGroup, List.length_flatMap]

include hh hv

theorem nodup_map_dst_fullFrameMoves : ((fullFrameMoves 2 h v).map Move.dst).Nodup := by
  simp only [fullFrameMoves, List.map_flatMap]
  refine nodup_grid (fun a => groupOf v (a / h)) (fun a => groupOf h (a % h))
    (fun i j hi hj => nodup_map_dst_fullFrameGroup hh hv hi hj) fun i j a hi hj ha => ?_
  obtain ⟨m, hm, rfl⟩ := List.mem_map.1 ha
  exact (place_of_mem_fullFrameGroup hh hv hi hj hm).2

theorem dst_lt_of_mem_fullFrameMoves {m : Move} (hm : m ∈ fullFrameMoves 2 h v) :
    m.dst < h * v := by
  obtain ⟨i, hi, j, hj, hm⟩ := (mem_fullFrameMoves 2 h v m).1 hm
  obtain ⟨hline, -⟩ := place_of_mem_fullFrameGroup hh hv hi hj hm
  rwa [Nat.div_lt_iff_lt_mul (by omega), Nat.mul_comm] at hline

end FourTap

section Sources
variable {h v : Nat}

theorem forall_src_fullFrameGroup {i j : Nat} (p : Nat → Prop) :
    (∀ a ∈ (fullFrameGroup 2 h v i j).map Move.src, p a) ↔
      p (4 * (i * (h / 2) + j) + 2) ∧ p (4 * (i * (h / 2) + j) + 3) ∧
        p (4 * (i * (h / 2) + j) + 1) ∧ p (4 * (i * (h / 2) + j)) := by
  simp [fullFrameGroup]

/-- A group reads the four samples from its base on, and the bases are told apart line by line. -/
theorem src_of_mem_fullFrameGroup {i j a : Nat} (hj : j < h / 2)
    (ha : a ∈ (fullFrameGroup 2 h v i j).map Move.src) :
    a / 4 / (h / 2) = i ∧ a / 4 % (h / 2) = j := by
  have hbase : a / 4 = i * (h / 2) + j := by
    refine (forall_src_fullFrameGroup fun a => a / 4 = i * (h / 2) + j).2 ?_ a ha
    omega
  rw [hbase]
  exact line_place hj

theorem nodup_map_src_fullFrameMoves : ((fullFrameMoves 2 h v).map Move.src).Nodup := by
  simp only [fullFrameMoves, List.map_flatMap]
  refine nodup_grid (fun a => a / 4 / (h / 2)) (fun a => a / 4 % (h / 2)) (fun i j _ _ => ?_)
    fun i j a _ hj ha => src_of_mem_fullFrameGroup hj ha
  simp [fullFrameGroup]

theorem src_lt_of_mem_fullFrameMoves {m : Move} (hm : m ∈ fullFrameMoves 2 h v) :
    m.src < v / 2 * (h / 2 * 4) := by
  obtain ⟨i, hi, j, hj, hm⟩ := (mem_fullFrameMoves 2 h v m).1 hm
  obtain ⟨hline, -⟩ := src_of_mem_fullFrameGroup hj (List.mem_map_of_mem hm)
  rw [← hline, Nat.div_lt_iff_lt_mul (by omega), Nat.div_lt_iff_lt_mul (by decide)] at hi
  rwa [← Nat.mul_assoc]

end Sources

/-- Settles O37: destinations and sources are as many as the samples of the frame, distinct, and inside
it. -/
theorem fourTapMappingIsBijection : Obligations.FourTapMappingIsBijection := by
  intro h v hh hv
  have hcount : v / 2 * (h / 2 * 4) = h * v := by
    obtain ⟨k, rfl⟩ := Nat.dvd_of_mod_eq_zero hh
    obtain ⟨l, rfl⟩ := Nat.dvd_of_mod_eq_zero hv
    rw [Nat.mul_div_cancel_left _ two_pos, Nat.mul_div_cancel_left _ two_pos]
    ring
  have hlen := (length_fullFrameMoves 2 h v).trans hcount
  constructor
  · refine perm_range_of_nodup (nodup_map_dst_fullFrameMoves hh hv) (fun a ha => ?_) (by simpa using hlen)
    obtain ⟨m, hm, rfl⟩ := List.mem_map.1 ha
    exact dst_lt_of_mem_fullFrameMoves hh hv hm
  · refine perm_range_of_nodup nodup_map_src_fullFrameMoves (fun a ha => ?_) (by simpa using hlen)
    obtain ⟨m, hm, rfl⟩ := List.mem_map.1 ha
    exact (src_lt_of_mem_fullFrameMoves hm).trans_eq hcount

/-! ### The streak-camera mapping (R196) -/

/-- A group of a line reads below the end of the line's four raw lines. -/
theorem src_lt_of_mem_streakMoves {w v : Nat} {m : Move} (hm : m ∈ streakMoves w v) :
    m.src < v / 2 * 4 * w := by
  obtain ⟨i, hi, j, hj, hm⟩ := (mem_streakMoves w v m).1 hm
  have hline : i * 4 * w + 4 * w ≤ v / 2 * 4 * w := by
    rw [← Nat.add_mul, ← Nat.succ_mul]
    exact Nat.mul_le_mul_right w (Nat.mul_le_mul_right 4 hi)
  refine (forall_mem_streakGroup fun _ src => src < v / 2 * 4 * w).2 ?_ m hm
  omega

/-- Settles O38: the destinations are as many as the samples of the output lines, distinct, and inside
them. -/
theorem streakMappingTilesLines : Obligations.StreakMappingTilesLines := by
  intro w v hw
  refine ⟨perm_range_of_nodup (nodup_map_dst_streakMoves hw v) (fun a ha => ?_) ?_,
    fun m hm => src_lt_of_mem_streakMoves hm⟩
  · obtain ⟨m, hm, rfl⟩ := List.mem_map.1 ha
    exact dst_lt_of_mem_streakMoves hm
  · have hgroups : w / 2 / 2 * 4 = w := by omega
    simp [streakMoves, streakGroup, List.length_flatMap, hgroups]

/-! ### The four-tap image (R192, R194, R195) -/

section Image
variable (s : State) (lin : Bool) {h v : Nat} (hh : h % 2 = 0) (hv : v % 2 = 0)
include hh hv

/-- Each of a group's four places holds the sample its move read, through the curve of its sector. -/
theorem readSample_applyMoves_fullFrameMoves {i j : Nat} (hi : i < v / 2) (hj : j < h / 2) {m : Move}
    (hm : m ∈ fullFrameGroup 2 h v i j) :
    (applyMoves s lin (fullFrameMoves 2 h v)).readSample .img s.epoch m.dst =
      linearise s lin m.sector (s.rawSample m.src) :=
  applyMoves_sample s lin _ .img s.epoch (nodup_map_dst_fullFrameMoves hh hv) m
    ((mem_fullFrameMoves 2 h v m).2 ⟨i, hi, j, hj, hm⟩)

theorem readByte_applyMoves_fullFrameMoves {a : Nat} (ha : 2 * (h * v) ≤ a) :
    (applyMoves s lin (fullFrameMoves 2 h v)).readByte a = s.img.readByte a := by
  refine applyMoves_readByte_other s lin _ a fun m hm => ?_
  have hlt := dst_lt_of_mem_fullFrameMoves hh hv hm
  omega

end Image

/-- The checks of R192, stated in `Z`, on a frame size given in `Nat` and with the factors of the
model. -/
theorem checkFullFrame_natCast {c : Config} {h v : Nat} (hhdf : c.hdf = 2) (hvdf : c.vdf = 2)
    (hpos : 0 < h) (vpos : 0 < v) (hh : h % 2 = 0) (hv : v % 2 = 0) (hraw : h * v ≤ c.rawLen)
    (himg : h * v ≤ c.imgLen) : checkFullFrame c h v = .ok () := by
  rw [checkFullFrame_ok, hhdf, hvdf]
  refine ⟨by omega, by omega, by omega, by omega, ?_, ?_⟩
  · exact_mod_cast hraw
  · exact_mod_cast himg

/-- `00_scope.md` R6: a PCCD-4824 has the factors 2 and 2. -/
theorem legal_factors {c : Config} (hc : c.legal) (hmodel : c.modelId = .pccd4824) :
    c.hdf = 2 ∧ c.vdf = 2 := by
  obtain ⟨-, -, -, -, -, -, -, -, -, hfactors, -⟩ := hc
  exact hfactors hmodel

section FourTapCommand
variable {s : State} {h v : Nat} (hc : s.cfg.legal) (hmodel : s.cfg.modelId = .pccd4824)
  (hmode : s.mode ≠ streakCamera) (hgh : s.geom.framesizeH.toInt = h)
  (hgv : s.geom.framesizeV.toInt = v) (hpos : 0 < h) (vpos : 0 < v) (hh : h % 2 = 0) (hv : v % 2 = 0)
  (hraw : h * v ≤ s.cfg.rawLen) (himg : h * v ≤ s.cfg.imgLen)
include hc hmodel hmode hgh hgv hpos vpos hh hv hraw himg

theorem exec_descrOf_fourTap (lin : Bool) (hlut : lin = true → s.lutLoaded = true) :
    exec (descrOf lin) s = .next ((storeImage s lin (fullFrameMoves 2 h v) v h).complete 0) := by
  obtain ⟨hhdf, hvdf⟩ := legal_factors hc hmodel
  have hcheck := checkFullFrame_natCast hhdf hvdf hpos vpos hh hv hraw himg
  have hrun : descramble s lin = .ok (storeImage s lin (fullFrameMoves 2 h v) v h) := by
    refine (descramble_ok s _ lin).2 ⟨(checkLut_ok s lin).2 hlut, .inl ⟨hmodel, hmode, ?_, ?_⟩⟩
    · rw [hgh, hgv, hcheck]
    · rw [hgh, hgv, State.hdf, hhdf]
      rfl
  rw [exec_descrOf, hrun, finish_ok]

/-- The four-tap image with its frame, for both commands. -/
theorem descrOf_writes_fourTap (lin : Bool) (hlut : lin = true → s.lutLoaded = true) :
    ∃ t, exec (descrOf lin) s = .next t ∧
      (∀ i j, i < v / 2 → j < h / 2 → ∀ m ∈ fullFrameGroup 2 h v i j,
        t.imgSample m.dst = linearise s lin m.sector (s.rawSample m.src)) ∧
      (∀ a, 2 * (h * v) ≤ a → t.img.readByte a = s.img.readByte a) ∧
      t.imgMeta = ⟨BitVec.ofNat 64 v, BitVec.ofNat 64 h⟩ ∧
      t.sent = s.sent ++ [okResponse s.cfg.modelId 0] ∧ sameButImage s t := by
  refine ⟨_, exec_descrOf_fourTap hc hmodel hmode hgh hgv hpos vpos hh hv hraw himg lin hlut,
    fun i j hi hj m hm => readSample_applyMoves_fullFrameMoves s lin hh hv hi hj hm,
    fun a ha => readByte_applyMoves_fullFrameMoves s lin hh hv ha, ?_, rfl, rfl⟩
  simp only [complete_imgMeta, storeImage_imgMeta, BitVec.ofInt_natCast]

end FourTapCommand

/-- Settles O34: the moves of each group in the closed form, each sample stored as it is. -/
theorem descrWritesFourTapImage : Obligations.DescrWritesFourTapImage := by
  intro s h v hc hmodel hmode hgh hgv hpos vpos hh hv hraw himg
  obtain ⟨t, hrun, hsamples, hframe⟩ :=
    descrOf_writes_fourTap hc hmodel hmode hgh hgv hpos vpos hh hv hraw himg false (by simp)
  exact ⟨t, hrun, fun i j hi hj => (forall_mem_fullFrameGroup hh hv hi hj fun dst src _ =>
    t.imgSample dst = s.rawSample src).1 (hsamples i j hi hj), hframe⟩

/-- Settles O35: the moves of each group in the closed form, each sample through its sector's curve. -/
theorem descrLinWritesLinearisedImage : Obligations.DescrLinWritesLinearisedImage := by
  intro s h v hc hmodel hmode hlut hgh hgv hpos vpos hh hv hraw himg
  obtain ⟨t, hrun, hsamples, hframe⟩ :=
    descrOf_writes_fourTap hc hmodel hmode hgh hgv hpos vpos hh hv hraw himg true fun _ => hlut
  exact ⟨t, hrun, fun i j hi hj => (forall_mem_fullFrameGroup hh hv hi hj fun dst src n =>
    t.imgSample dst = s.lutEntry (n * 65536 + (s.rawSample src).toNat)).1 (hsamples i j hi hj), hframe⟩

/-! ### The checks in their order (R191, R192, R195, R197) -/

theorem reports_selectVariant (m : DetectorModel) (mode : Word) (lin : Bool) :
    Reports (selectVariant m mode lin)
      [(decide (m = .pccd16080 ∨ (mode = streakCamera ∧ lin = true) ∨
          (m = .pccd170170 ∧ ¬mode = streakCamera)), notImplemented m mode lin)] := by
  cases m with
  | pccd16080 => simp [Reports, firstFailure, selectVariant]
  | pccd4824 =>
    by_cases hmode : mode = streakCamera
    · cases lin <;> simp [Reports, firstFailure, selectVariant, hmode]
    · simp [Reports, firstFailure, selectVariant, hmode]
  | pccd170170 =>
    by_cases hmode : mode = streakCamera
    · cases lin <;> simp [Reports, firstFailure, selectVariant, hmode]
    · simp [Reports, firstFailure, selectVariant, hmode]

theorem reports_checkLut (s : State) (lin : Bool) :
    Reports (checkLut s lin)
      [(decide (lin = true ∧ s.lutLoaded = false), ⟨.dscLut, s.cfg.lutLen, 0, 0, 0⟩)] :=
  (reports_ok ()).check

/-- The two checks of a variant, each beside the one of the other variant, which cannot fail. -/
theorem reports_runVariant {s : State} {lin : Bool} {variant : Variant}
    (hvariant : selectVariant s.cfg.modelId s.mode lin = .ok variant) :
    let h := s.geom.framesizeH.toInt
    let v := s.geom.framesizeV.toInt
    Reports (runVariant s lin variant)
      [ (decide (¬s.mode = streakCamera ∧ (h ≤ 0 ∨ v ≤ 0 ∨ h % s.cfg.hdf ≠ 0 ∨ v % s.cfg.vdf ≠ 0)),
          ⟨.dscGeometry, h, v, s.cfg.hdf, s.cfg.vdf⟩),
        (decide (s.mode = streakCamera ∧ (h ≤ 0 ∨ v ≤ 0 ∨ h % 4 ≠ 0)), ⟨.dscGeometry, h, v, 4, 1⟩),
        (decide (¬s.mode = streakCamera ∧ ((s.cfg.rawLen : Int) < h * v ∨ (s.cfg.imgLen : Int) < h * v)),
          ⟨.dscBuffer, h * v, s.cfg.rawLen, h * v, s.cfg.imgLen⟩),
        (decide (s.mode = streakCamera ∧ ((s.cfg.rawLen : Int) < floorDiv v 2 * 4 * h ∨
            (s.cfg.imgLen : Int) < floorDiv v 2 * h)),
          ⟨.dscBuffer, floorDiv v 2 * 4 * h, s.cfg.rawLen, floorDiv v 2 * h, s.cfg.imgLen⟩) ] := by
  intro h v
  cases variant with
  | fullFrame4 =>
    obtain ⟨-, hmode⟩ := (selectVariant_fullFrame _ _ _).1 hvariant
    have hchecks : Reports (checkFullFrame s.cfg h v) _ := (reports_ok ()).check.check
    refine (hchecks.bind (ds := []) fun _ _ => reports_ok _).congr ?_
    simp [firstFailure, hmode]
  | streak =>
    obtain ⟨-, hmode, -⟩ := (selectVariant_streak _ _ _).1 hvariant
    have hchecks : Reports (checkStreak s.cfg h v) _ := (reports_ok ()).check.check
    refine (hchecks.bind (ds := []) fun _ _ => reports_ok _).congr ?_
    simp [firstFailure, hmode]

/-- Settles O39: the variant, the table, then the variant's own two checks. -/
theorem descrErrorsInOrder : Obligations.DescrErrorsInOrder := by
  intro s lin m mode streaking h v raw img hdf vdf lines checks
  rw [exec_descrOf]
  refine finish_of_reports ?_ fun u => descramble_sent
  exact (reports_selectVariant m mode lin).bind fun _ hvariant =>
    (reports_checkLut s lin).bind fun _ _ => reports_runVariant hvariant

/-! ### What a descrambling touches (R190, R199) -/

/-- Settles O40: a failed command only responds, and a completed one stores by its moves alone. -/
theorem descrFrame : Obligations.DescrFrame := by
  intro s t lin h
  rcases exec_descrOf_cases h with ⟨f, rfl⟩ | ⟨u, hu, rfl⟩
  · exact ⟨rfl, fun a _ => rfl⟩
  · obtain ⟨-, ⟨-, hmode, -, rfl⟩ | ⟨-, hmode, -, -, rfl⟩⟩ := (descramble_ok s u lin).1 hu
    · rw [imageMoves, if_neg hmode]
      exact ⟨rfl, fun a ha => applyMoves_readByte_other s lin _ a ha⟩
    · rw [imageMoves, if_pos hmode]
      exact ⟨rfl, fun a ha => applyMoves_readByte_other s lin _ a ha⟩

/-! ### The identity table (R195) -/

theorem sector_lt_of_mem_fullFrameMoves {hdf h v : Nat} {m : Move} (hm : m ∈ fullFrameMoves hdf h v) :
    m.sector < 4 := by
  obtain ⟨i, -, j, -, hgroup⟩ := (mem_fullFrameMoves hdf h v m).1 hm
  have hsectors : ∀ k ∈ fullFrameGroup hdf h v i j, k.sector < 4 := by simp [fullFrameGroup]
  exact hsectors m hgroup

/-- Moves that store the same samples make the same image. -/
theorem applyMoves_congr {s : State} {lin lin' : Bool} {ms : List Move}
    (h : ∀ m ∈ ms, movedSample s lin m = movedSample s lin' m) :
    applyMoves s lin ms = applyMoves s lin' ms :=
  List.foldl_ext _ _ _ fun img m hm => by rw [h m hm]

theorem linearise_identity {s : State}
    (htable : ∀ n v, n < 4 → v < 65536 → s.lutEntry (n * 65536 + v) = BitVec.ofNat 16 v) {n : Nat}
    (hn : n < 4) (x : Sample) : linearise s true n x = linearise s false n x := by
  calc linearise s true n x = BitVec.ofNat 16 x.toNat := htable n x.toNat hn x.isLt
    _ = x := by rw [BitVec.ofNat_toNat, BitVec.setWidth_eq]

/-- Settles O41: the linearised command makes the four-tap image only, so the plain one makes it too,
and under an identity table each move stores the same sample. -/
theorem identityTableMakesPlainImage : Obligations.IdentityTableMakesPlainImage := by
  intro s t u htable ht hu hok
  rcases exec_descrOf_cases (lin := true) hu with ⟨f, rfl⟩ | ⟨x, hx, rfl⟩
  · exact absurd hok (not_completedOk_raise s f)
  obtain ⟨-, ⟨hmodel, hmode, hcheck, rfl⟩ | ⟨-, -, hlin, -⟩⟩ := (descramble_ok s x true).1 hx
  · have hplain := (descramble_ok s _ false).2
      ⟨(checkLut_ok s false).2 (by simp), .inl ⟨hmodel, hmode, hcheck, rfl⟩⟩
    have hrun : exec .descr s = _ := (exec_descrOf s false).trans (congrArg (finish s) hplain)
    rw [hrun, finish_ok] at ht
    cases ht
    simp only [complete_img, complete_imgMeta, storeImage_img, storeImage_imgMeta, and_true]
    exact applyMoves_congr fun m hm =>
      linearise_identity htable (sector_lt_of_mem_fullFrameMoves hm) (s.rawSample m.src)
  · cases hlin

end Sys2Proof.Machine

/-!
PROOFS. The environment and the step: the moves and reset (`20_memory.md` R62,
`70_reset_and_hazards.md` R260), what each makes of the state, and the induction step, over everything a
step can be, from which every invariant follows.
-/

namespace Sys2Proof.Machine

/-! ### A move of the environment as a step (R62) -/

theorem leadingWords_move {e : HostEvent} (he : ∀ w, e ≠ .word w) (rest : List HostEvent) :
    leadingWords (e :: rest) = [] := by
  cases e with
  | word w => exact absurd rfl (he w)
  | _ => rfl

/-- With no whole frame received the environment's next move is the step. -/
theorem step_of_move {s : State} {e : HostEvent} {rest : List HostEvent} (hin : s.input = e :: rest)
    (he : ∀ w, e ≠ .word w) (hrx : frameUnfinished s) :
    step s = environmentMove e { s with input := rest } := by
  have hpending : s.pendingWords = s.rx := by
    rw [State.pendingWords, hin, leadingWords_move he, List.append_nil]
  rw [step_of_incomplete (hpending ▸ hrx), stepPort, hin]
  cases e with
  | word w => exact absurd rfl (he w)
  | _ => rfl

/-- Settles O55: the move is `State.applyReset`, which is the state the statement writes out. -/
theorem resetDiscardsPartialFrame : Obligations.ResetDiscardsPartialFrame := by
  intro s rest hin hrx
  exact step_of_move hin (by simp) hrx

/-- Settles O56: read after write on the samples of `RAW`. -/
theorem loadRawWritesOneSample : Obligations.LoadRawWritesOneSample := by
  intro s a v rest hin hrx ha
  refine ⟨{ s with input := rest, raw := s.raw.writeSample a v }, ?_,
    readSample_writeSample_same s.raw .raw s.epoch a v,
    fun b hb => readSample_writeSample_other s.raw .raw s.epoch a b v hb, rfl⟩
  exact (step_of_move hin (by simp) hrx).trans (if_pos ha)

/-- Settles O57: the loaded memory is the table's cells, and the flag decides a second load. -/
theorem lutLoadsOnce : Obligations.LutLoadsOnce := by
  intro s l rest hin hrx
  have hstep := step_of_move hin (by simp) hrx
  refine ⟨fun hloaded => hstep.trans (if_pos hloaded), fun hfree hlen =>
    ⟨{ s with input := rest, lut := cellsOfTable 0 l, lutLoaded := true }, ?_, rfl, fun n hn => ?_, rfl⟩⟩
  · exact hstep.trans ((if_neg (ne_true_of_eq_false hfree)).trans (if_pos hlen))
  · have hentry := readSample_cellsOfTable l 0 n .lut s.epoch (hlen ▸ hn)
    rwa [Nat.zero_add] at hentry

/-- What a move that is allowed makes of the state, one rule for each kind (R62, R260). -/
inductive MoveMakes (s : State) : HostEvent → State → Prop where
  | word (w : Word) : MoveMakes s (.word w) { s with rx := s.rx ++ [w] }
  | loadRaw {a : Nat} (v : Sample) (ha : a < s.cfg.rawLen) :
      MoveMakes s (.loadRaw a v) { s with raw := s.raw.writeSample a v }
  | readImage (a : Nat) :
      MoveMakes s (.readImage a) { s with answers := s.answers ++ [.sample a (s.imgSample a)] }
  | readMeta : MoveMakes s .readMeta { s with answers := s.answers ++ [.imageMeta s.imgMeta] }
  | loadLut {l : List Sample} (hfree : s.lutLoaded = false) (hlen : l.length = s.cfg.lutLen) :
      MoveMakes s (.loadLut l) { s with lut := cellsOfTable 0 l, lutLoaded := true }
  | setReadoutTime {r : S64} (hr : 0 ≤ r.toInt) :
      MoveMakes s (.setReadoutTime r) { s with readoutTime := r }
  | reset : MoveMakes s .reset s.applyReset

theorem environmentMove_makes {e : HostEvent} {s t : State} (h : environmentMove e s = .next t) :
    MoveMakes s e t := by
  rcases environmentMove_cases e s t h with ⟨w, rfl, rfl⟩ | ⟨a, v, rfl, ha, rfl⟩ | ⟨a, rfl, -, rfl⟩ |
    ⟨rfl, rfl⟩ | ⟨l, rfl, hfree, hlen, rfl⟩ | ⟨r, rfl, hr, rfl⟩ | ⟨rfl, rfl⟩
  · exact .word w
  · exact .loadRaw v ha
  · exact .readImage a
  · exact .readMeta
  · exact .loadLut hfree hlen
  · exact .setReadoutTime hr
  · exact .reset

/-- Settles O59: one case for each move of the table but the reset. -/
theorem environmentMovesAsTabled : Obligations.EnvironmentMovesAsTabled := by
  intro s t e hreset h
  cases environmentMove_makes h with
  | reset => exact absurd rfl hreset
  | setReadoutTime hr => exact ⟨⟨rfl, rfl, rfl, rfl, rfl, rfl, rfl, rfl⟩, by simpa using hr⟩
  | _ => exact ⟨⟨rfl, rfl, rfl, rfl, rfl, rfl, rfl, rfl⟩, by simp⟩

/-- Settles O60: each stop is a branch of its move. -/
theorem movesNotAllowedStop : Obligations.MovesNotAllowedStop := by
  intro s
  refine ⟨fun a v ha => if_neg (not_lt.2 ha), fun a ha => if_neg (not_lt.2 ha),
    fun l hfree hlen => (if_neg (ne_true_of_eq_false hfree)).trans (if_neg hlen),
    fun r hr => if_pos hr, fun c hc => if_neg hc, fun c hc => if_pos hc⟩

/-! ### The induction step of every invariant -/

section Step
variable {P Q : State → Prop} {s t : State}

/-- From `P` a step leads to `Q`, if the ports bear on neither, every commit of a command leads from one
to the other, and so does every move of the environment. -/
theorem step_leads (hweaken : ∀ s : State, P s → Q s)
    (hportsP : ∀ (s : State) (p : Ports), P s → P (s.withPorts p))
    (hportsQ : ∀ (s : State) (p : Ports), Q s → Q (s.withPorts p))
    (hcommit : ∀ s u : State, P s → CommandCommits s u → Q u)
    (hmove : ∀ (e : HostEvent) (s t : State), P s → environmentMove e s = .next t → Q t)
    (hs : P s) (h : step s = .next t) : Q t := by
  have hraise (x : State) (f : Failure) (hx : P x) : Q (x.raise f) :=
    hportsQ x ⟨x.sent ++ [errorResponse x.cfg.modelId f], x.rx, x.input, x.answers⟩ (hweaken x hx)
  have hcomplete (x : State) (d : Word) (hx : Q x) : Q (x.complete d) :=
    hportsQ x ⟨x.sent ++ [okResponse x.cfg.modelId d], x.rx, x.input, x.answers⟩ hx
  have hconsume (n : Nat) : P (s.consume n) :=
    hportsP s ⟨s.sent, s.rx.drop n, s.input.drop (n - s.rx.length), s.answers⟩ hs
  rcases step_cases s t h with ⟨i, -, hexec⟩ | ⟨r, hr, -, hanswer⟩ | ⟨-, w, rest, -, rfl⟩ |
    ⟨-, e, rest, -, -, hmv⟩ | ⟨-, -, rfl⟩
  · rcases exec_cases hexec with ⟨f, rfl⟩ | ⟨u, d, hu, rfl⟩
    · exact hraise _ f (hconsume _)
    · exact hcomplete u d (hcommit _ u (hconsume _) hu)
  · obtain ⟨f, rfl⟩ := answerReject_cases _ r _ t hr hanswer
    exact hraise _ f (hconsume _)
  · exact hportsQ s ⟨s.sent, s.pendingWords, s.input.drop (leadingWords s.input).length, s.answers⟩
      (hweaken s hs)
  · exact hmove e _ t (hportsP s ⟨s.sent, s.rx, rest, s.answers⟩ hs) hmv
  · exact hweaken _ hs

/-- A property that no port bears on, that every commit of a command keeps and every move of the
environment, is kept by every step. -/
theorem step_keeps (hports : ∀ (s : State) (p : Ports), P s → P (s.withPorts p))
    (hcommit : ∀ s u : State, P s → CommandCommits s u → P u)
    (hmove : ∀ (e : HostEvent) (s t : State), P s → environmentMove e s = .next t → P t)
    (hs : P s) (h : step s = .next t) : P t :=
  step_leads (fun _ hs => hs) hports hports hcommit hmove hs h

theorem environmentMove_cfg {e : HostEvent} (h : environmentMove e s = .next t) : t.cfg = s.cfg := by
  cases environmentMove_makes h <;> rfl

/-- The same for a property of states with a legal configuration. -/
theorem step_keeps_of_legal (hports : ∀ (s : State) (p : Ports), P s → P (s.withPorts p))
    (hcommit : ∀ s u : State, s.cfg.legal → P s → CommandCommits s u → P u)
    (hmove : ∀ (e : HostEvent) (s t : State), s.cfg.legal → P s → environmentMove e s = .next t → P t)
    (hc : s.cfg.legal) (hs : P s) (h : step s = .next t) : P t := by
  have hboth : t.cfg.legal ∧ P t :=
    step_keeps (P := fun s => s.cfg.legal ∧ P s) (fun s p hs => ⟨hs.1, hports s p hs.2⟩)
      (fun s u hs hu => ⟨hu.cfg_eq ▸ hs.1, hcommit s u hs.1 hs.2 hu⟩)
      (fun e s t hs hmv => ⟨environmentMove_cfg hmv ▸ hs.1, hmove e s t hs.1 hs.2 hmv⟩) ⟨hc, hs⟩ h
  exact hboth.2

end Step

/-- Settles O47: no commit and no move writes the configuration. -/
theorem stepKeepsConfiguration : Obligations.StepKeepsConfiguration := by
  intro s t h
  exact step_keeps (P := fun x => x.cfg = s.cfg) (fun _ _ hx => hx)
    (fun _ _ hx hu => hu.cfg_eq.trans hx) (fun _ _ _ hx hmv => (environmentMove_cfg hmv).trans hx) rfl h

end Sys2Proof.Machine

/-!
PROOFS. The register invariant (`10_state.md` R25): the limits a legal configuration gives the registers,
the values of a plan within them, and from these that every step keeps the registers legal.
-/

namespace Sys2Proof.Machine

/-! ### The registers (R25) -/

/-- The registers of a configuration are all as their descriptors say. -/
def regsLegal (c : Config) (r : List Word) : Prop :=
  r.length = c.nregs ∧ ∀ k, k < c.nregs → registerOk (descriptor c k) (r.getD k 0)

theorem registersLegal_iff (s : State) : registersLegal s ↔ regsLegal s.cfg s.regs := Iff.rfl

section Registers
variable {c : Config} {r : List Word}

theorem regsLegal_set {k : Nat} {v : Word} (hr : regsLegal c r) (hv : registerOk (descriptor c k) v) :
    regsLegal c (r.set k v) := by
  obtain ⟨hlen, hok⟩ := hr
  refine ⟨by rw [List.length_set, hlen], fun j hj => ?_⟩
  by_cases hjk : j = k
  · subst hjk
    simpa [hlen, hj] using hv
  · rw [getD_set_other v hjk]
    exact hok j hj

theorem regsLegal_writeRegs {ws : List (Nat × Int)} (hr : regsLegal c r)
    (hws : ∀ w ∈ ws, registerOk (descriptor c w.1) (BitVec.ofInt 32 w.2)) :
    regsLegal c (writeRegs r ws) := by
  induction ws generalizing r with
  | nil => exact hr
  | cons w ws ih =>
    obtain ⟨hw, hrest⟩ := List.forall_mem_cons.1 hws
    exact ih (regsLegal_set hr hw) hrest

theorem regsLegal_controlRegs {o n : Word} (hr : regsLegal c r) (hn : registerOk (descriptor c 0) n) :
    regsLegal c (controlRegs o n r) := by
  unfold controlRegs
  split
  · exact regsLegal_set hr hn
  · exact hr

theorem descriptor_getElem? {k : Nat} (hk : k < c.nregs) : c.desc[k]? = some (descriptor c k) := by
  rw [descriptor, List.getD_eq_getElem _ _ hk, List.getElem?_eq_getElem hk]

variable (hc : c.legal)
include hc

theorem legal_seven_le : 7 ≤ c.desc.length := by
  obtain ⟨-, -, ⟨hnames, -⟩, -⟩ := hc
  have := congrArg List.length hnames
  simp [Config.architected] at this
  omega

/-- The architected registers are plain: neither read-only nor a power of two is asked of them. -/
theorem descriptor_plain {k : Nat} (hk : k < 7) :
    (descriptor c k).readOnly = false ∧ (descriptor c k).powerOfTwo = false := by
  have hget := descriptor_getElem? (hk.trans_le (legal_seven_le hc))
  obtain ⟨-, -, ⟨-, hplain, -⟩, -⟩ := hc
  exact hplain _ (List.mem_of_getElem? (by rw [List.getElem?_take_of_lt hk, hget]))

theorem registerOk_of_limits {k : Nat} (hk : k < 7) {n : Int} (hlo : (descriptor c k).minimum ≤ n)
    (hhi : n ≤ (descriptor c k).maximum) : registerOk (descriptor c k) (BitVec.ofInt 32 n) := by
  obtain ⟨hread, hpow⟩ := descriptor_plain hc hk
  have hmax := descriptor_maximum_le hc hk
  have hvalue : ((BitVec.ofInt 32 n).toNat : Int) = n := by
    rw [BitVec.toNat_ofInt]
    omega
  exact ⟨by omega, by omega, by simp [hpow], by simp [hread]⟩

/-- The control register takes every word. -/
theorem registerOk_control (w : Word) : registerOk (descriptor c 0) w := by
  have hget := descriptor_getElem? (k := 0) ((by decide : 0 < 7).trans_le (legal_seven_le hc))
  obtain ⟨hread, hpow⟩ := descriptor_plain hc (k := 0) (by decide)
  obtain ⟨-, -, ⟨-, -, hlimits, -⟩, -⟩ := hc
  obtain ⟨hmin, hmax⟩ := hlimits (descriptor c 0) (by simp [hget])
  have := w.isLt
  exact ⟨by omega, by omega, by simp [hpow], by simp [hread]⟩

/-- The gap register takes 1 to `GAP_STEPS_MAX`, and so 1 itself. -/
theorem descriptor_gap :
    (descriptor c 3).minimum = 1 ∧ (descriptor c 3).maximum = c.gapStepsMax ∧ 1 ≤ c.gapStepsMax := by
  have hget := descriptor_getElem? (k := 3) ((by decide : 3 < 7).trans_le (legal_seven_le hc))
  obtain ⟨-, hdesc, ⟨-, -, -, hlimits, -⟩, -⟩ := hc
  obtain ⟨hmin, hmax⟩ := hlimits (descriptor c 3) (by simp [hget])
  obtain ⟨hlo, hhi, -⟩ := hdesc _ (List.mem_of_getElem? hget)
  exact ⟨hmin, hmax, by omega⟩

end Registers

/-! ### The values of a plan -/

/-- A value that the checks of its register accept. -/
def withinLimits (c : Config) (k : Nat) (n : Int) : Prop :=
  (descriptor c k).minimum ≤ n ∧ n ≤ (descriptor c k).maximum

theorem withinLimits_frames {c : Config} {nf : Int} (h : checkFrames c nf = .ok ()) :
    withinLimits c 1 nf := (checkFrames_ok c nf).1 h

theorem withinLimits_exposure {c : Config} {e n : Int} (h : exposureSteps c e = .ok n) :
    withinLimits c 2 n := by
  obtain ⟨-, -, hlimits⟩ := (exposureSteps_ok c e n).1 h
  exact hlimits

theorem withinLimits_gap {c : Config} (hc : c.legal) {g n : Int} (h : gapSteps c g = .ok n) :
    withinLimits c 3 n := by
  obtain ⟨hmin, hmax, -⟩ := descriptor_gap hc
  obtain ⟨-, -, hlo, hhi⟩ := (gapSteps_ok c g n).1 h
  exact ⟨by omega, by omega⟩

theorem withinLimits_frameGap {c : Config} (hc : c.legal) {t : SequenceType} {nf g : Int}
    {gap : Option Int} (h : frameGap c t nf g = .ok gap) :
    ∀ w ∈ gapWrites gap, withinLimits c w.1 w.2 := by
  obtain ⟨hmin, hmax, hone⟩ := descriptor_gap hc
  rcases (frameGap_ok c t nf g gap).1 h with ⟨-, rfl⟩ | ⟨-, -, n, hn, rfl⟩ | ⟨-, -, rfl⟩
  · simp only [gapWrites, List.forall_mem_singleton]
    exact ⟨by omega, by omega⟩
  · simpa [gapWrites] using withinLimits_gap hc hn
  · simp [gapWrites]

theorem forall_mem_planWrites (p : SequencePlan) (q : Nat × Int → Prop) :
    (∀ w ∈ planWrites p, q w) ↔
      q (1, p.frames) ∧ (∀ w ∈ branchWrites p.branch, q w) ∧ q (2, p.exposure) ∧
        ∀ w ∈ gapWrites p.gap, q w := by
  simp only [planWrites, List.forall_mem_cons, List.forall_mem_append]

/-- The checks of the validate phase are those of the registers. -/
theorem withinLimits_planWrites {i : Instr} {s : State} {p : SequencePlan} (hc : s.cfg.legal)
    (h : sequencePlan s i = some (.ok p)) : ∀ w ∈ planWrites p, withinLimits s.cfg w.1 w.2 := by
  rw [forall_mem_planWrites]
  unfold sequencePlan at h
  split at h
  · next ps =>
    obtain ⟨-, hframes, lines, hlines, es, hes, gs, hgs, rfl⟩ :=
      (streakPlan_ok s ps p).1 (Option.some.inj h)
    obtain ⟨-, hlimits⟩ := (streakLines_ok _ _ _).1 hlines
    refine ⟨withinLimits_frames hframes, ?_, withinLimits_exposure hes, ?_⟩
    · rw [branchWrites, List.forall_mem_singleton]
      exact hlimits
    · simpa [gapWrites] using withinLimits_gap hc hgs
  · next ps =>
    obtain ⟨-, -, hframes, sf, hsf, sp, hsp, es, hes, gs, hgs, rfl⟩ :=
      (subimagePlan_ok s ps p).1 (Option.some.inj h)
    obtain ⟨-, hsize⟩ := (subframeSize_ok _ _ _).1 hsf
    obtain ⟨-, hcount⟩ := (subimagesPerRead_ok _ _ _).1 hsp
    refine ⟨withinLimits_frames hframes, ?_, withinLimits_exposure hes, ?_⟩
    · rw [branchWrites, List.forall_mem_cons, List.forall_mem_singleton]
      exact ⟨hsize, hcount⟩
    · simpa [gapWrites] using withinLimits_gap hc hgs
  · obtain ⟨⟨t, ps, nf, e, f⟩, -, hplan⟩ := Option.map_eq_some_iff.1 h
    obtain ⟨-, -, hframes, es, hes, gap, hgap, rfl⟩ := (frameBasedPlan_ok s t ps nf e f p).1 hplan
    exact ⟨withinLimits_frames hframes, by simp [branchWrites], withinLimits_exposure hes,
      withinLimits_frameGap hc hgap⟩

theorem registerOk_planWrites {i : Instr} {s : State} {p : SequencePlan} (hc : s.cfg.legal)
    (h : sequencePlan s i = some (.ok p)) :
    ∀ w ∈ planWrites p, registerOk (descriptor s.cfg w.1) (BitVec.ofInt 32 w.2) := by
  intro w hw
  obtain ⟨hlo, hhi⟩ := withinLimits_planWrites hc h w hw
  obtain ⟨-, hkey⟩ := (planWrites_keys p).2 w.1 (List.mem_map_of_mem hw)
  exact registerOk_of_limits hc hkey hlo hhi

/-! ### The registers are kept legal (R25) -/

theorem registerOk_of_checkWrite {d : RegDesc} {a v : Word} (h : checkWrite d a v = .ok ()) :
    registerOk d v := by
  obtain ⟨hread, hmin, hmax, hpow⟩ := (checkWrite_ok d a v).1 h
  exact ⟨hmin, hmax, hpow, by simp [hread]⟩

/-- An image is all that a descrambling stores. -/
theorem descramble_storeImage {s u : State} {lin : Bool} (h : descramble s lin = .ok u) :
    ∃ ms rows cols, u = storeImage s lin ms rows cols := by
  obtain ⟨-, ⟨-, -, -, hu⟩ | ⟨-, -, -, -, hu⟩⟩ := (descramble_ok s u lin).1 h
  · exact ⟨_, _, _, hu⟩
  · exact ⟨_, _, _, hu⟩

theorem registersLegal_of_commits {s u : State} (hc : s.cfg.legal) (hs : registersLegal s)
    (hu : CommandCommits s u) : registersLegal u := by
  cases hu with
  | read => exact hs
  | writeReg hk hcheck => exact regsLegal_set hs (registerOk_of_checkWrite hcheck)
  | writeField w => exact regsLegal_set hs (registerOk_control hc w)
  | sequence hp =>
    rw [registersLegal_iff, commitPlan_regs_eq, commitPlan_cfg]
    exact regsLegal_controlRegs (regsLegal_writeRegs hs (registerOk_planWrites hc hp))
      (registerOk_control hc _)
  | image hu =>
    obtain ⟨ms, rows, cols, rfl⟩ := descramble_storeImage hu
    exact hs

theorem registersLegal_resetOf {c : Config} (hc : c.legal) : registersLegal (State.resetOf c) := by
  refine ⟨by simp [resetRegs], fun k hk => ?_⟩
  rw [reg_resetOf, resetOf_cfg]
  obtain ⟨-, hdesc, -⟩ := hc
  obtain ⟨hmin, hmax, hword, hpow⟩ := hdesc _ (List.mem_of_getElem? (descriptor_getElem? hk))
  have hvalue : (BitVec.ofNat 32 (descriptor c k).default).toNat = (descriptor c k).default := by
    rw [BitVec.toNat_ofNat]
    omega
  exact ⟨hmin.trans_eq hvalue.symm, hvalue.trans_le hmax, hpow, fun _ => rfl⟩

/-- Only a reset writes a register, a geometry or the image from the environment's side. -/
theorem environmentMove_reset_or_frame {e : HostEvent} {s t : State}
    (h : environmentMove e s = .next t) :
    t = s.applyReset ∨
      (t.cfg = s.cfg ∧ t.regs = s.regs ∧ t.geom = s.geom ∧ t.saved = s.saved ∧ t.img = s.img) := by
  by_cases he : e = .reset
  · subst he
    exact .inl (Host.Outcome.next.inj h).symm
  · obtain ⟨⟨hregs, hgeom, hsaved, himg, -, hcfg, -⟩, -⟩ := environmentMovesAsTabled s t e he h
    exact .inr ⟨hcfg, hregs, hgeom, hsaved, himg⟩

/-- Settles O48: every write of a command passed the checks of its register. -/
theorem stepKeepsRegistersLegal : Obligations.StepKeepsRegistersLegal := by
  intro s t hc hs h
  refine step_keeps_of_legal (fun _ _ hs => hs) (fun s u => registersLegal_of_commits)
    (fun e s t hc hs hmv => ?_) hc hs h
  rcases environmentMove_reset_or_frame hmv with rfl | ⟨hcfg, hregs, -⟩
  · exact registersLegal_resetOf hc
  · rwa [registersLegal_iff, hcfg, hregs]

end Sys2Proof.Machine

/-!
PROOFS. The invariants of the memories, the geometry, the readout time and the table (`20_memory.md` R50,
`10_state.md` R33, R36, R39).
-/

namespace Sys2Proof.Machine

/-! ### The memories are kept canonical (R50) -/

/-- A capacity checked in `Z`, read in `Nat`. -/
theorem toNat_mul_toNat_le {a b : Int} {n : Nat} (ha : 0 ≤ a) (hb : 0 ≤ b) (h : a * b ≤ n) :
    a.toNat * b.toNat ≤ n := by
  lift a to Nat using ha
  lift b to Nat using hb
  exact_mod_cast h

/-- Under a legal configuration every move of a completed descrambling stays inside the image. -/
theorem descramble_dst_lt {s u : State} {lin : Bool} (hc : s.cfg.legal)
    (h : descramble s lin = .ok u) :
    ∃ ms rows cols, u = storeImage s lin ms rows cols ∧ ∀ m ∈ ms, m.dst < s.cfg.imgLen := by
  obtain ⟨-, ⟨hmodel, -, hcheck, rfl⟩ | ⟨-, -, -, hcheck, rfl⟩⟩ := (descramble_ok s u lin).1 h
  · obtain ⟨hhdf, hvdf⟩ := legal_factors hc hmodel
    obtain ⟨hpos, vpos, hh, hv, -, himg⟩ := (checkFullFrame_ok _ _ _).1 hcheck
    rw [hhdf] at hh
    rw [hvdf] at hv
    refine ⟨_, _, _, rfl, fun m hm => ?_⟩
    rw [State.hdf, hhdf] at hm
    exact (dst_lt_of_mem_fullFrameMoves (by omega) (by omega) hm).trans_le
      (toNat_mul_toNat_le hpos.le vpos.le himg)
  · obtain ⟨hpos, vpos, -, -, himg⟩ := (checkStreak_ok _ _ _).1 hcheck
    have hlines := floorDiv_eq_natDiv vpos.le (b := 2) (by decide)
    refine ⟨_, _, _, rfl, fun m hm => (dst_lt_of_mem_streakMoves hm).trans_le ?_⟩
    rw [hlines] at himg
    exact toNat_mul_toNat_le (Int.natCast_nonneg _) hpos.le himg

theorem memoriesCanonical_of_commits {s u : State} (hc : s.cfg.legal) (hs : memoriesCanonical s)
    (hu : CommandCommits s u) : memoriesCanonical u := by
  cases hu with
  | image hu =>
    obtain ⟨ms, rows, cols, rfl, hdst⟩ := descramble_dst_lt hc hu
    obtain ⟨hraw, ⟨hwf, hwithin⟩, hlut⟩ := hs
    exact ⟨hraw, ⟨applyMoves_wf s _ ms hwf, applyMoves_within s _ ms _ hwithin hdst⟩, hlut⟩
  | _ => exact hs

theorem memoriesCanonical_resetOf (c : Config) : memoriesCanonical (State.resetOf c) := by
  simp [memoriesCanonical, State.resetOf]

theorem memoriesCanonical_of_move {e : HostEvent} {s t : State} (hs : memoriesCanonical s)
    (h : environmentMove e s = .next t) : memoriesCanonical t := by
  obtain ⟨⟨hwf, hwithin⟩, himg, hlut⟩ := hs
  cases environmentMove_makes h with
  | loadRaw v ha =>
    exact ⟨⟨writeSample_wf _ _ v hwf, writeSample_within _ _ v _ hwithin ha⟩, himg, hlut⟩
  | @loadLut l _ hlen =>
    exact ⟨⟨hwf, hwithin⟩, himg, cellsOfTable_wf l 0, hlen ▸ cellsOfTable_within l⟩
  | reset => exact memoriesCanonical_resetOf s.cfg
  | _ => exact ⟨⟨hwf, hwithin⟩, himg, hlut⟩

/-- Settles O49: a command stores inside the image only, and a move inside its own memory. -/
theorem stepKeepsMemoriesCanonical : Obligations.StepKeepsMemoriesCanonical := fun _ _ hc hs h =>
  step_keeps_of_legal (fun _ _ hs => hs) (fun _ _ => memoriesCanonical_of_commits)
    (fun _ _ _ _ => memoriesCanonical_of_move) hc hs h

/-! ### The geometry is stable (R33) -/

/-- The three sizes of a geometry that no command writes, at their reset values. -/
def sizesAtReset (c : Config) (g : FrameGeometry) : Prop :=
  g.framesizeH = c.resetFramesizeH ∧ g.binsizeH = c.resetBinsizeH ∧ g.binsizeV = c.resetBinsizeV

theorem geometryStable_iff (s : State) :
    geometryStable s ↔ sizesAtReset s.cfg s.geom ∧ sizesAtReset s.cfg s.saved := by
  simp only [geometryStable, sizesAtReset, and_assoc]

/-- A sequence moves the geometry between `GEOM` and `SAVED`, and writes the vertical frame size only. -/
theorem geometryStable_commitPlan {i : Instr} {s : State} {p : SequencePlan} (hs : geometryStable s)
    (h : sequencePlan s i = some (.ok p)) : geometryStable (commitPlan s p) := by
  rw [geometryStable_iff] at hs ⊢
  obtain ⟨hgeom, hsaved⟩ := hs
  obtain ⟨-, ⟨ps, -, henters⟩ | ⟨-, hleaves⟩⟩ := sequencePlan_ok_cases h
  · obtain ⟨hg, hsv⟩ := commitPlan_geometry_of_enters henters
    rw [hg, hsv]
    refine ⟨hgeom, ?_⟩
    split
    · exact hsaved
    · exact hgeom
  · obtain ⟨hg, hsv⟩ := commitPlan_geometry_of_leaves hleaves
    rw [hg, hsv, leftGeometry]
    refine ⟨?_, hsaved⟩
    split
    · exact hsaved
    · exact hgeom

theorem geometryStable_of_commits {s u : State} (hs : geometryStable s) (hu : CommandCommits s u) :
    geometryStable u := by
  cases hu with
  | sequence hp => exact geometryStable_commitPlan hs hp
  | image hu =>
    obtain ⟨ms, rows, cols, rfl⟩ := descramble_storeImage hu
    exact hs
  | _ => exact hs

theorem geometryStable_resetOf (c : Config) : geometryStable (State.resetOf c) :=
  ⟨rfl, rfl, rfl, rfl, rfl, rfl⟩

/-- Settles O50: only a sequence writes a geometry, or a reset. -/
theorem stepKeepsGeometryStable : Obligations.StepKeepsGeometryStable := by
  intro s t hs h
  refine step_keeps (fun _ _ hs => hs) (fun _ _ => geometryStable_of_commits)
    (fun e s t hs hmv => ?_) hs h
  rcases environmentMove_reset_or_frame hmv with rfl | ⟨hcfg, -, hgeom, hsaved, -⟩
  · exact geometryStable_resetOf s.cfg
  · rwa [geometryStable_iff, hcfg, hgeom, hsaved, ← geometryStable_iff]

/-! ### The readout time and the table (R36, R62) -/

/-- Every byte of a loaded table is listed. -/
theorem readByte_cellsOfTable_isSome (l : List Sample) (a x : Nat) (hx : x < 2 * l.length) :
    (Memory.readByte (cellsOfTable a l) (2 * a + x)).isSome = true := by
  induction l generalizing a x with
  | nil => simp at hx
  | cons v l ih =>
    simp only [cellsOfTable, Memory.readByte]
    rcases x with _ | _ | x
    · simp
    · simp
    · rw [if_neg (by omega), if_neg (by omega), show 2 * a + (x + 1 + 1) = 2 * (a + 1) + x by omega]
      exact ih (a + 1) x (by simp only [List.length_cons] at hx; omega)

theorem timeAndTable_of_commits {s u : State} (hs : readoutTimeNonneg s ∧ lutWhole s)
    (hu : CommandCommits s u) : readoutTimeNonneg u ∧ lutWhole u := by
  cases hu with
  | image hu =>
    obtain ⟨ms, rows, cols, rfl⟩ := descramble_storeImage hu
    exact hs
  | _ => exact hs

theorem timeAndTable_resetOf {c : Config} (hc : c.legal) :
    readoutTimeNonneg (State.resetOf c) ∧ lutWhole (State.resetOf c) := by
  obtain ⟨-, -, -, -, -, -, -, -, -, -, -, -, -, -, -, htime⟩ := hc
  exact ⟨htime, by simp [lutWhole]⟩

theorem timeAndTable_of_move {e : HostEvent} {s t : State} (hc : s.cfg.legal)
    (hs : readoutTimeNonneg s ∧ lutWhole s) (h : environmentMove e s = .next t) :
    readoutTimeNonneg t ∧ lutWhole t := by
  obtain ⟨htime, htable⟩ := hs
  cases environmentMove_makes h with
  | @loadLut l _ hlen =>
    refine ⟨htime, fun _ a ha => ?_⟩
    have hlisted := readByte_cellsOfTable_isSome l 0 a (hlen ▸ ha)
    rwa [Nat.mul_zero, Nat.zero_add] at hlisted
  | setReadoutTime hr => exact ⟨hr, htable⟩
  | reset => exact timeAndTable_resetOf hc
  | _ => exact ⟨htime, htable⟩

/-- Settles O51: no command writes the time or the table, and their moves write them whole. -/
theorem stepKeepsTimeAndTable : Obligations.StepKeepsTimeAndTable := fun _ _ hc hs h =>
  step_keeps_of_legal (P := fun s => readoutTimeNonneg s ∧ lutWhole s) (fun _ _ hs => hs)
    (fun _ _ _ => timeAndTable_of_commits) (fun _ _ _ => timeAndTable_of_move) hc hs h

/-- The table is loaded, and it and the count of resets are those of `s`. -/
def SameTable (s t : State) : Prop := t.lut = s.lut ∧ t.lutLoaded = true ∧ t.epoch = s.epoch

theorem SameTable.of_commits {s t u : State} (ht : SameTable s t) (hu : CommandCommits t u) :
    SameTable s u := by
  cases hu with
  | image hu =>
    obtain ⟨ms, rows, cols, rfl⟩ := descramble_storeImage hu
    exact ht
  | _ => exact ht

theorem SameTable.of_move {s t u : State} {e : HostEvent} (ht : SameTable s t)
    (h : environmentMove e t = .next u) :
    SameTable s u ∨ (u.lutLoaded = false ∧ u.epoch = s.epoch + 1) := by
  obtain ⟨hlut, hloaded, hepoch⟩ := ht
  cases environmentMove_makes h with
  | loadLut hfree => exact absurd (hfree.symm.trans hloaded) (by decide)
  | reset => exact .inr ⟨rfl, congrArg (· + 1) hepoch⟩
  | _ => exact .inl ⟨hlut, hloaded, hepoch⟩

/-- Settles O58: a second load is refused, so only a reset is left to touch the table. -/
theorem loadedTableIsImmutable : Obligations.LoadedTableIsImmutable := fun s _ hloaded h =>
  step_leads (P := SameTable s) (fun _ => .inl) (fun _ _ ht => ht) (fun _ _ ht => ht)
    (fun _ _ ht hu => .inl (ht.of_commits hu)) (fun _ _ _ ht hmv => ht.of_move hmv)
    ⟨rfl, hloaded, rfl⟩ h

end Sys2Proof.Machine

/-!
PROOFS. The invariant of the ports (`30_encoding.md` R71, R76), and that the state after reset meets
every invariant (`10_state.md` R43).
-/

namespace Sys2Proof.Machine

/-! ### The ports stay whole (R71, R76, R240) -/

theorem commandOf_ne_incomplete (h : Word) (ops : List Word) :
    commandOf h ops ≠ .error .incomplete := by
  unfold commandOf
  split
  iterate 4
    · simp
  · split <;> simp
  · split <;> simp
  · simp

theorem decodeFrame_ne_incomplete (h : Word) (ops : List Word) :
    decodeFrame h ops ≠ .error .incomplete := by
  unfold decodeFrame
  split
  · simp
  split
  · simp
  split
  · simp
  exact commandOf_ne_incomplete h ops

/-- A frame is unfinished as long as fewer words stand behind its header than it announces. -/
theorem decode_cons_incomplete_iff (h : Word) (rest : List Word) :
    decode (h :: rest) = .error .incomplete ↔ rest.length < headerNw h := by
  rw [decode]
  split
  · next hshort => simp [hshort]
  · next hwhole => simp [hwhole, decodeFrame_ne_incomplete]

/-- A frame taken off the port takes the unfinished words with it. -/
theorem rx_consume_of_unfinished {s : State} (hs : frameUnfinished s) :
    (s.consume (pendingLength s.pendingWords)).rx = [] := by
  rw [consume_rx, List.drop_eq_nil_iff]
  cases hrx : s.rx with
  | nil => exact Nat.zero_le _
  | cons h rest =>
    rw [frameUnfinished, hrx, decode_cons_incomplete_iff] at hs
    rw [State.pendingWords, hrx, List.cons_append, pendingLength, frameLength, List.length_cons]
    omega

theorem CommandCommits.rx_eq {s u : State} (h : CommandCommits s u) : u.rx = s.rx := by
  cases h with
  | image hu =>
    obtain ⟨ms, rows, cols, rfl⟩ := descramble_storeImage hu
    rfl
  | _ => rfl

/-- A command adds one whole response and receives no word. -/
theorem exec_ports {i : Instr} {s t : State} (h : exec i s = .next t) :
    t.cfg = s.cfg ∧ t.rx = s.rx ∧ ∃ r, t.sent = s.sent ++ [r] ∧ responseWhole s.cfg.modelId r := by
  rcases exec_cases h with ⟨f, rfl⟩ | ⟨u, d, hu, rfl⟩
  · exact ⟨rfl, rfl, _, rfl, responseWhole_errorResponse _ f⟩
  · refine ⟨hu.cfg_eq, hu.rx_eq, okResponse u.cfg.modelId d, ?_, ?_⟩
    · rw [complete_sent, hu.sent_eq]
    · rw [hu.cfg_eq]
      exact responseWhole_okResponse _ d

theorem responsesWhole_append {s t : State} {r : List Word} (hs : responsesWhole s)
    (hcfg : t.cfg = s.cfg) (hsent : t.sent = s.sent ++ [r]) (hr : responseWhole s.cfg.modelId r) :
    responsesWhole t := by
  intro x hx
  rw [hsent, List.mem_append, List.mem_singleton] at hx
  rw [hcfg]
  rcases hx with hx | rfl
  · exact hs x hx
  · exact hr

theorem frameUnfinished_of_nil {s : State} (h : s.rx = []) : frameUnfinished s := by
  rw [frameUnfinished, h]
  rfl

/-- Settles O52: a command or a rejected frame leaves no word behind and adds one whole response, and
what is received without a step of a command is no whole frame. -/
theorem stepKeepsPortsWhole : Obligations.StepKeepsPortsWhole := by
  intro s t ⟨hrx, hsent⟩ h
  have hconsumed := rx_consume_of_unfinished hrx
  rcases step_cases s t h with ⟨i, -, hexec⟩ | ⟨r, hr, -, hanswer⟩ | ⟨hd, w, rest, -, rfl⟩ |
    ⟨-, e, rest, -, he, hmv⟩ | ⟨-, -, rfl⟩
  · obtain ⟨hcfg, htrx, r, htsent, hwhole⟩ := exec_ports hexec
    exact ⟨frameUnfinished_of_nil (htrx.trans hconsumed),
      responsesWhole_append hsent hcfg htsent hwhole⟩
  · obtain ⟨f, rfl⟩ := answerReject_cases _ r _ t hr hanswer
    exact ⟨frameUnfinished_of_nil hconsumed,
      responsesWhole_append hsent rfl rfl (responseWhole_errorResponse _ f)⟩
  · exact ⟨hd, hsent⟩
  · cases environmentMove_makes hmv with
    | word w => exact absurd rfl (he w)
    | reset => exact ⟨rfl, hsent⟩
    | _ => exact ⟨hrx, hsent⟩
  · exact ⟨hrx, hsent⟩

/-! ### The state after reset meets them all (R43) -/

theorem reference_legal : (Config.reference .pccd4824).legal := by
  decide

/-- Settles O53: a legal configuration's defaults, sizes and readout time are within their limits, and the
memories and the ports are empty. -/
theorem resetMeetsInvariants : Obligations.ResetMeetsInvariants := by
  refine ⟨fun c hc => ?_, reference_legal, rfl⟩
  obtain ⟨htime, htable⟩ := timeAndTable_resetOf hc
  exact ⟨registersLegal_resetOf hc, memoriesCanonical_resetOf c, geometryStable_resetOf c, htime, htable,
    frameUnfinished_of_nil rfl, fun _ hr => absurd hr List.not_mem_nil⟩

end Sys2Proof.Machine
